-- ==== Sys2Proof/Word.lean ====
section
/-! DEFINITION. The word of the machine: registers, ALU, instructions and memory cells are all 16 bits wide
(00_scope.md R2, R4). -/

namespace Sys2Proof

/-- A 16-bit word: a register, a memory cell, an instruction, an address (00_scope.md R2). -/
abbrev Word := BitVec 16

/-- The 5-bit immediate field of an M, ZP or I word (30_encoding.md R71). -/
abbrev Imm5 := BitVec 5

/-- The 11-bit immediate of `pfx`, and the width of the prefix register (30_encoding.md R71, 10_state.md R19). -/
abbrev Imm11 := BitVec 11

end Sys2Proof
end

