-- ==== Sys2Proof/Config.lean ====
section
/-! DEFINITION. What one machine fixes and the programs running on it cannot change: the named parameters of
00_scope.md R4, and the values the spec leaves free, which have no body. -/

namespace Sys2Proof

/-- `SUB_STORE_ORDER` (41_arithmetic.md R119): what the `sub` order subtracts in a store form. -/
inductive SubStoreOrder where
  | regMinusMem
  | memMinusReg
  deriving DecidableEq, Repr

/-- `R_MOV_SRC_FIELD` (45_move.md R180): which R-type field holds the source of `mov` and `mvl`. -/
inductive RMovSrcField where
  | rk
  | rj
  deriving DecidableEq, Repr

/-- The three BCD operations, as an argument of the free function `Config.bcdInvalid` (92_eei_decisions.md D9). -/
inductive BcdOp where
  | dad
  | dac
  | dsc
  deriving DecidableEq, Repr

namespace Config

/-- The parameters that the spec leaves open to each machine, which the model takes as an argument (00_scope.md R4;
`State.resetOf`). -/
structure Params where
  /-- `PROG_WORDS`, installed program memory in words. -/
  progWords : Nat
  /-- `DATA_WORDS`, installed data memory in words. -/
  dataWords : Nat
  /-- `RESET_PC`, the entry point after reset. -/
  resetPc : Word
  deriving DecidableEq, Repr

/-- The installed sizes a machine can have: 1 to 65536 words of each memory (92_eei_decisions.md D14). -/
abbrev legalSizes (progWords dataWords : Nat) : Prop :=
  (1 ≤ progWords ∧ progWords ≤ 65536) ∧ 1 ≤ dataWords ∧ dataWords ≤ 65536

/-- The spec's default values of the open parameters. DESIGN CHOICE (log 4, log 7): those of 92_eei_decisions.md D10, D14. -/
def defaults : Params where
  progWords := 65536
  dataWords := 65536
  resetPc := 0

/-- `PC_SRC_BIAS`: the value read from register 7 minus the address of the executing instruction, decided 0 by
10_state.md R16. DEDUCED (log 8). -/
def pcSrcBias : Word := 0

/-- `SUB_STORE_ORDER`, decided by 41_arithmetic.md R119. DEDUCED (log 12). -/
def subStoreOrder : SubStoreOrder := .regMinusMem

/-- `R_MOV_SRC_FIELD`, decided by 45_move.md R180. DEDUCED (log 13). -/
def rMovSrcField : RMovSrcField := .rk

/-- `SHIFT_Z`: the Z flag after the n-th shift or rotate of a run, a free value (43_shift_rotate.md R149;
DESIGN CHOICE, log 14). -/
opaque shiftZ : Nat → Bool

/-- `BCD_INVALID`: result and carry of a BCD operation when an operand has a digit above 9, an uninterpreted
function of the operation, its two operands (for `dsc` the minuend first) and the carry in (41_arithmetic.md R121;
DESIGN CHOICE, log 15). -/
opaque bcdInvalid : BcdOp → Word → Word → Bool → Word × Bool

end Config

end Sys2Proof
end

