-- ==== Sys2Proof/Syntax.lean ====
section
/-! DEFINITION. The instruction set as syntax: registers, address registers, condition codes, and one constructor of
`Instr` per row of spec/opcode_table.json (30_encoding.md R73). -/

namespace Sys2Proof

/-- The eight register numbers: R0 to R6, and PC as register 7 (10_state.md R10). -/
inductive Reg where
  | r0
  | r1
  | r2
  | r3
  | r4
  | r5
  | r6
  | pc
  deriving DecidableEq, Repr

/-- The address registers A0, A1, A2, which are R4, R5, R6 (10_state.md R11, R13). -/
inductive AReg where
  | a0
  | a1
  | a2
  deriving DecidableEq, Repr

/-- The eight condition codes (44_compare.md R160). -/
inductive CC where
  | eq
  | ne
  | uge
  | ult
  | ge
  | lt
  | ugt
  | gt
  deriving DecidableEq, Repr

/-- The instructions. The suffix of a constructor names its form: `ML`, `MS` M-type load and store (indexed memory),
`ZL`, `ZS` ZP-type load and store (direct memory), `R` R-type, `I` I-type with a destination R0 to R6; the I-type words
with destination PC have their branch names (30_encoding.md R61 to R65, R76; log 29). `ri` is the `Ri` field, `rj` and
`rk` the R-type source fields, `an` the address register, `k` the immediate field, `cc` the condition code. -/
inductive Instr where
  /-- `nop` (R230). -/
  | nop
  /-- `pfx K` (R92). -/
  | pfx (k : Imm11)
  /-- `hlt` (R231). -/
  | hlt
  /-- `lp [Rk], Ri` (R181). -/
  | lp (ri rk : Reg)
  /-- `cmp.eq [An, K], Ri`, M-type load (R162). -/
  | cmpML (ri : Reg) (an : AReg) (k : Imm5)
  /-- `mov [An, K], Ri`, M-type load (R180). -/
  | movML (ri : Reg) (an : AReg) (k : Imm5)
  /-- `mov Ri, [An, K]`, M-type store (R180). -/
  | movMS (ri : Reg) (an : AReg) (k : Imm5)
  /-- `add [An, K], Ri`, M-type load (R111). -/
  | addML (ri : Reg) (an : AReg) (k : Imm5)
  /-- `add Ri, [An, K]`, M-type store (R111). -/
  | addMS (ri : Reg) (an : AReg) (k : Imm5)
  /-- `sub [An, K], Ri`, M-type load (R115). -/
  | subML (ri : Reg) (an : AReg) (k : Imm5)
  /-- `sub Ri, [An, K]`, M-type store (R115). -/
  | subMS (ri : Reg) (an : AReg) (k : Imm5)
  /-- `and [An, K], Ri`, M-type load (R130). -/
  | andML (ri : Reg) (an : AReg) (k : Imm5)
  /-- `and Ri, [An, K]`, M-type store (R130). -/
  | andMS (ri : Reg) (an : AReg) (k : Imm5)
  /-- `adt [An, K], Ri`, M-type load (R200). -/
  | adtML (ri : Reg) (an : AReg) (k : Imm5)
  /-- `adt Ri, [An, K]`, M-type store (R200). -/
  | adtMS (ri : Reg) (an : AReg) (k : Imm5)
  /-- `cmp.eq [M], Ri`, ZP-type load (R162). -/
  | cmpZL (ri : Reg) (k : Imm5)
  /-- `cpc.eq [M], Ri`, ZP-type load (R163). -/
  | cpcZL (ri : Reg) (k : Imm5)
  /-- `mov [M], Ri`, ZP-type load (R180). -/
  | movZL (ri : Reg) (k : Imm5)
  /-- `mov Ri, [M]`, ZP-type store (R180). -/
  | movZS (ri : Reg) (k : Imm5)
  /-- `set [M], Ri`, ZP-type load (R182). -/
  | setZL (ri : Reg) (k : Imm5)
  /-- `set Ri, [M]`, ZP-type store (R182). -/
  | setZS (ri : Reg) (k : Imm5)
  /-- `sef [M], Ri`, ZP-type load (R183). -/
  | sefZL (ri : Reg) (k : Imm5)
  /-- `sef Ri, [M]`, ZP-type store (R183). -/
  | sefZS (ri : Reg) (k : Imm5)
  /-- `sel [M], Ri`, ZP-type load (R184). -/
  | selZL (ri : Reg) (k : Imm5)
  /-- `sel Ri, [M]`, ZP-type store (R184). -/
  | selZS (ri : Reg) (k : Imm5)
  /-- `add [M], Ri`, ZP-type load (R111). -/
  | addZL (ri : Reg) (k : Imm5)
  /-- `add Ri, [M]`, ZP-type store (R111). -/
  | addZS (ri : Reg) (k : Imm5)
  /-- `dad [M], Ri`, ZP-type load (R112). -/
  | dadZL (ri : Reg) (k : Imm5)
  /-- `dad Ri, [M]`, ZP-type store (R112). -/
  | dadZS (ri : Reg) (k : Imm5)
  /-- `adc [M], Ri`, ZP-type load (R113). -/
  | adcZL (ri : Reg) (k : Imm5)
  /-- `adc Ri, [M]`, ZP-type store (R113). -/
  | adcZS (ri : Reg) (k : Imm5)
  /-- `dac [M], Ri`, ZP-type load (R114). -/
  | dacZL (ri : Reg) (k : Imm5)
  /-- `dac Ri, [M]`, ZP-type store (R114). -/
  | dacZS (ri : Reg) (k : Imm5)
  /-- `sub [M], Ri`, ZP-type load (R115). -/
  | subZL (ri : Reg) (k : Imm5)
  /-- `sub Ri, [M]`, ZP-type store (R115). -/
  | subZS (ri : Reg) (k : Imm5)
  /-- `rsb [M], Ri`, ZP-type load (R116). -/
  | rsbZL (ri : Reg) (k : Imm5)
  /-- `rsb Ri, [M]`, ZP-type store (R116). -/
  | rsbZS (ri : Reg) (k : Imm5)
  /-- `sbc [M], Ri`, ZP-type load (R117). -/
  | sbcZL (ri : Reg) (k : Imm5)
  /-- `sbc Ri, [M]`, ZP-type store (R117). -/
  | sbcZS (ri : Reg) (k : Imm5)
  /-- `dsc [M], Ri`, ZP-type load (R118). -/
  | dscZL (ri : Reg) (k : Imm5)
  /-- `dsc Ri, [M]`, ZP-type store (R118). -/
  | dscZS (ri : Reg) (k : Imm5)
  /-- `and [M], Ri`, ZP-type load (R130). -/
  | andZL (ri : Reg) (k : Imm5)
  /-- `and Ri, [M]`, ZP-type store (R130). -/
  | andZS (ri : Reg) (k : Imm5)
  /-- `or [M], Ri`, ZP-type load (R131). -/
  | orZL (ri : Reg) (k : Imm5)
  /-- `or Ri, [M]`, ZP-type store (R131). -/
  | orZS (ri : Reg) (k : Imm5)
  /-- `xor [M], Ri`, ZP-type load (R132). -/
  | xorZL (ri : Reg) (k : Imm5)
  /-- `xor Ri, [M]`, ZP-type store (R132). -/
  | xorZS (ri : Reg) (k : Imm5)
  /-- `mvl [M], Ri`, ZP-type load (R218). -/
  | mvlZL (ri : Reg) (k : Imm5)
  /-- `mvl Ri, [M]`, ZP-type store (R218). -/
  | mvlZS (ri : Reg) (k : Imm5)
  /-- `adt [M], Ri`, ZP-type load (R200). -/
  | adtZL (ri : Reg) (k : Imm5)
  /-- `adt Ri, [M]`, ZP-type store (R200). -/
  | adtZS (ri : Reg) (k : Imm5)
  /-- `adf [M], Ri`, ZP-type load (R201). -/
  | adfZL (ri : Reg) (k : Imm5)
  /-- `adf Ri, [M]`, ZP-type store (R201). -/
  | adfZS (ri : Reg) (k : Imm5)
  /-- `sbt [M], Ri`, ZP-type load (R202). -/
  | sbtZL (ri : Reg) (k : Imm5)
  /-- `sbt Ri, [M]`, ZP-type store (R202). -/
  | sbtZS (ri : Reg) (k : Imm5)
  /-- `sbf [M], Ri`, ZP-type load (R203). -/
  | sbfZL (ri : Reg) (k : Imm5)
  /-- `sbf Ri, [M]`, ZP-type store (R203). -/
  | sbfZS (ri : Reg) (k : Imm5)
  /-- `sr1 Rj, Ri`, R-type (R141). -/
  | sr1R (ri rj : Reg)
  /-- `rr1 Rj, Rk, Ri`, R-type (R145). -/
  | rr1R (ri rj rk : Reg)
  /-- `sr4 Rj, Ri`, R-type (R142). -/
  | sr4R (ri rj : Reg)
  /-- `rr4 Rj, Rk, Ri`, R-type (R146). -/
  | rr4R (ri rj rk : Reg)
  /-- `sl1 Rj, Ri`, R-type (R143). -/
  | sl1R (ri rj : Reg)
  /-- `rl1 Rj, Rk, Ri`, R-type (R147). -/
  | rl1R (ri rj rk : Reg)
  /-- `sl4 Rj, Ri`, R-type (R144). -/
  | sl4R (ri rj : Reg)
  /-- `rl4 Rj, Rk, Ri`, R-type (R148). -/
  | rl4R (ri rj rk : Reg)
  /-- `cmp.cc Rj, Rk`, R-type (R162). -/
  | cmpR (cc : CC) (rj rk : Reg)
  /-- `cpc.cc Rj, Rk`, R-type (R163). -/
  | cpcR (cc : CC) (rj rk : Reg)
  /-- `mov Rk, Ri`, R-type (R180). -/
  | movR (ri rk : Reg)
  /-- `set Rk, Ri`, R-type (R182). -/
  | setR (ri rk : Reg)
  /-- `sef Rk, Ri`, R-type (R183). -/
  | sefR (ri rk : Reg)
  /-- `sel Rj, Rk, Ri`, R-type (R184). -/
  | selR (ri rj rk : Reg)
  /-- `add Rj, Rk, Ri`, R-type (R111). -/
  | addR (ri rj rk : Reg)
  /-- `dad Rj, Rk, Ri`, R-type (R112). -/
  | dadR (ri rj rk : Reg)
  /-- `adc Rj, Rk, Ri`, R-type (R113). -/
  | adcR (ri rj rk : Reg)
  /-- `dac Rj, Rk, Ri`, R-type (R114). -/
  | dacR (ri rj rk : Reg)
  /-- `sub Rj, Rk, Ri`, R-type (R115). -/
  | subR (ri rj rk : Reg)
  /-- `rsb Rj, Rk, Ri`, R-type (R116). -/
  | rsbR (ri rj rk : Reg)
  /-- `sbc Rj, Rk, Ri`, R-type (R117). -/
  | sbcR (ri rj rk : Reg)
  /-- `dsc Rj, Rk, Ri`, R-type (R118). -/
  | dscR (ri rj rk : Reg)
  /-- `and Rj, Rk, Ri`, R-type (R130). -/
  | andR (ri rj rk : Reg)
  /-- `or Rj, Rk, Ri`, R-type (R131). -/
  | orR (ri rj rk : Reg)
  /-- `xor Rj, Rk, Ri`, R-type (R132). -/
  | xorR (ri rj rk : Reg)
  /-- `mvl Rk, Ri`, R-type (R218). -/
  | mvlR (ri rk : Reg)
  /-- `adt Rj, Rk, Ri`, R-type (R200). -/
  | adtR (ri rj rk : Reg)
  /-- `adf Rj, Rk, Ri`, R-type (R201). -/
  | adfR (ri rj rk : Reg)
  /-- `sbt Rj, Rk, Ri`, R-type (R202). -/
  | sbtR (ri rj rk : Reg)
  /-- `sbf Rj, Rk, Ri`, R-type (R203). -/
  | sbfR (ri rj rk : Reg)
  /-- `cmp.eq K, Ri`, I-type (R162). -/
  | cmpI (ri : Reg) (k : Imm5)
  /-- `cpc.eq K, Ri`, I-type (R163). -/
  | cpcI (ri : Reg) (k : Imm5)
  /-- `mov K, Ri`, I-type (R180). -/
  | movI (ri : Reg) (k : Imm5)
  /-- `j Label`, I-type with Ri = 7 (R211). -/
  | j (k : Imm5)
  /-- `set K, Ri`, I-type (R182). -/
  | setI (ri : Reg) (k : Imm5)
  /-- `sef K, Ri`, I-type (R183). -/
  | sefI (ri : Reg) (k : Imm5)
  /-- `sel K, Ri`, I-type (R184). -/
  | selI (ri : Reg) (k : Imm5)
  /-- `add K, Ri`, I-type (R111). -/
  | addI (ri : Reg) (k : Imm5)
  /-- `b+ Label`, I-type with Ri = 7 (R212). -/
  | bPlus (k : Imm5)
  /-- `dad K, Ri`, I-type (R112). -/
  | dadI (ri : Reg) (k : Imm5)
  /-- `adc K, Ri`, I-type (R113). -/
  | adcI (ri : Reg) (k : Imm5)
  /-- `dac K, Ri`, I-type (R114). -/
  | dacI (ri : Reg) (k : Imm5)
  /-- `sub K, Ri`, I-type (R115). -/
  | subI (ri : Reg) (k : Imm5)
  /-- `b- Label`, I-type with Ri = 7 (R213). -/
  | bMinus (k : Imm5)
  /-- `rsb K, Ri`, I-type (R116). -/
  | rsbI (ri : Reg) (k : Imm5)
  /-- `sbc K, Ri`, I-type (R117). -/
  | sbcI (ri : Reg) (k : Imm5)
  /-- `dsc K, Ri`, I-type (R118). -/
  | dscI (ri : Reg) (k : Imm5)
  /-- `and K, Ri`, I-type (R130). -/
  | andI (ri : Reg) (k : Imm5)
  /-- `or K, Ri`, I-type (R131). -/
  | orI (ri : Reg) (k : Imm5)
  /-- `xor K, Ri`, I-type (R132). -/
  | xorI (ri : Reg) (k : Imm5)
  /-- `mvl K, Ri`, I-type (R218). -/
  | mvlI (ri : Reg) (k : Imm5)
  /-- `jl Label`, I-type with Ri = 7 (R219). -/
  | jl (k : Imm5)
  /-- `adt K, Ri`, I-type (R200). -/
  | adtI (ri : Reg) (k : Imm5)
  /-- `bt+ Label`, I-type with Ri = 7 (R214). -/
  | btPlus (k : Imm5)
  /-- `adf K, Ri`, I-type (R201). -/
  | adfI (ri : Reg) (k : Imm5)
  /-- `bf+ Label`, I-type with Ri = 7 (R215). -/
  | bfPlus (k : Imm5)
  /-- `sbt K, Ri`, I-type (R202). -/
  | sbtI (ri : Reg) (k : Imm5)
  /-- `bt- Label`, I-type with Ri = 7 (R216). -/
  | btMinus (k : Imm5)
  /-- `sbf K, Ri`, I-type (R203). -/
  | sbfI (ri : Reg) (k : Imm5)
  /-- `bf- Label`, I-type with Ri = 7 (R217). -/
  | bfMinus (k : Imm5)
  deriving DecidableEq, Repr

end Sys2Proof
end

