-- ==== Sys2Proof/WellFormed.lean ====
section
/-! DEFINITION. Which terms of `Instr` stand for a word of their own row of the opcode table (log 29). -/

namespace Sys2Proof

/-- A `pfx` has a non-zero immediate (word 0 is `nop`, 30_encoding.md R65), and an I-type instruction other than the eight
branch names has a destination other than PC (30_encoding.md R74 rows 14 to 18, R76). Every other term is well-formed. -/
def Instr.wf : Instr → Bool
  | .nop => true
  | .pfx k => k != 0
  | .hlt => true
  | .lp _ _ => true
  | .cmpML _ _ _ => true
  | .movML _ _ _ => true
  | .movMS _ _ _ => true
  | .addML _ _ _ => true
  | .addMS _ _ _ => true
  | .subML _ _ _ => true
  | .subMS _ _ _ => true
  | .andML _ _ _ => true
  | .andMS _ _ _ => true
  | .adtML _ _ _ => true
  | .adtMS _ _ _ => true
  | .cmpZL _ _ => true
  | .cpcZL _ _ => true
  | .movZL _ _ => true
  | .movZS _ _ => true
  | .setZL _ _ => true
  | .setZS _ _ => true
  | .sefZL _ _ => true
  | .sefZS _ _ => true
  | .selZL _ _ => true
  | .selZS _ _ => true
  | .addZL _ _ => true
  | .addZS _ _ => true
  | .dadZL _ _ => true
  | .dadZS _ _ => true
  | .adcZL _ _ => true
  | .adcZS _ _ => true
  | .dacZL _ _ => true
  | .dacZS _ _ => true
  | .subZL _ _ => true
  | .subZS _ _ => true
  | .rsbZL _ _ => true
  | .rsbZS _ _ => true
  | .sbcZL _ _ => true
  | .sbcZS _ _ => true
  | .dscZL _ _ => true
  | .dscZS _ _ => true
  | .andZL _ _ => true
  | .andZS _ _ => true
  | .orZL _ _ => true
  | .orZS _ _ => true
  | .xorZL _ _ => true
  | .xorZS _ _ => true
  | .mvlZL _ _ => true
  | .mvlZS _ _ => true
  | .adtZL _ _ => true
  | .adtZS _ _ => true
  | .adfZL _ _ => true
  | .adfZS _ _ => true
  | .sbtZL _ _ => true
  | .sbtZS _ _ => true
  | .sbfZL _ _ => true
  | .sbfZS _ _ => true
  | .sr1R _ _ => true
  | .rr1R _ _ _ => true
  | .sr4R _ _ => true
  | .rr4R _ _ _ => true
  | .sl1R _ _ => true
  | .rl1R _ _ _ => true
  | .sl4R _ _ => true
  | .rl4R _ _ _ => true
  | .cmpR _ _ _ => true
  | .cpcR _ _ _ => true
  | .movR _ _ => true
  | .setR _ _ => true
  | .sefR _ _ => true
  | .selR _ _ _ => true
  | .addR _ _ _ => true
  | .dadR _ _ _ => true
  | .adcR _ _ _ => true
  | .dacR _ _ _ => true
  | .subR _ _ _ => true
  | .rsbR _ _ _ => true
  | .sbcR _ _ _ => true
  | .dscR _ _ _ => true
  | .andR _ _ _ => true
  | .orR _ _ _ => true
  | .xorR _ _ _ => true
  | .mvlR _ _ => true
  | .adtR _ _ _ => true
  | .adfR _ _ _ => true
  | .sbtR _ _ _ => true
  | .sbfR _ _ _ => true
  | .cmpI ri _ => ri != .pc
  | .cpcI ri _ => ri != .pc
  | .movI ri _ => ri != .pc
  | .j _ => true
  | .setI ri _ => ri != .pc
  | .sefI ri _ => ri != .pc
  | .selI ri _ => ri != .pc
  | .addI ri _ => ri != .pc
  | .bPlus _ => true
  | .dadI ri _ => ri != .pc
  | .adcI ri _ => ri != .pc
  | .dacI ri _ => ri != .pc
  | .subI ri _ => ri != .pc
  | .bMinus _ => true
  | .rsbI ri _ => ri != .pc
  | .sbcI ri _ => ri != .pc
  | .dscI ri _ => ri != .pc
  | .andI ri _ => ri != .pc
  | .orI ri _ => ri != .pc
  | .xorI ri _ => ri != .pc
  | .mvlI ri _ => ri != .pc
  | .jl _ => true
  | .adtI ri _ => ri != .pc
  | .btPlus _ => true
  | .adfI ri _ => ri != .pc
  | .bfPlus _ => true
  | .sbtI ri _ => ri != .pc
  | .btMinus _ => true
  | .sbfI ri _ => ri != .pc
  | .bfMinus _ => true

end Sys2Proof
end

