-- ==== Sys2Proof/Decode.lean ====
section
/-! DEFINITION. The decoder, total on all 65536 words and following the procedure of 30_encoding.md R77, and the encoder,
written from the formats R61 to R65 and the opcode map R73; then the host's `decodeTableWord`. -/

namespace Sys2Proof

/-! ## Fields of an instruction word (30_encoding.md R60 to R68) -/

/-- `Mode`, bits 15:14. -/
def modeF (w : Word) : BitVec 2 := w.extractLsb' 14 2
/-- `op`, bits 13:11. -/
def opF (w : Word) : BitVec 3 := w.extractLsb' 11 3
/-- Bits 10:8: `Ri`, or the condition code `CC`. -/
def destF (w : Word) : BitVec 3 := w.extractLsb' 8 3
/-- Bits 7:6: `fn`, or `An` in M-type. -/
def fnF (w : Word) : BitVec 2 := w.extractLsb' 6 2
/-- `s`, bit 5. -/
def sF (w : Word) : BitVec 1 := w.extractLsb' 5 1
/-- `imm`, bits 4:0. -/
def immF (w : Word) : Imm5 := w.extractLsb' 0 5
/-- The immediate of `pfx`, bits 10:0. -/
def imm11F (w : Word) : Imm11 := w.extractLsb' 0 11

/-- The register a 3-bit field names (30_encoding.md R66). -/
def regOfBits (b : BitVec 3) : Reg :=
  match b.toNat with
  | 0 => .r0
  | 1 => .r1
  | 2 => .r2
  | 3 => .r3
  | 4 => .r4
  | 5 => .r5
  | 6 => .r6
  | _ => .pc

/-- The number of a register (10_state.md R10). -/
def regBits : Reg → BitVec 3
  | .r0 => 0
  | .r1 => 1
  | .r2 => 2
  | .r3 => 3
  | .r4 => 4
  | .r5 => 5
  | .r6 => 6
  | .pc => 7

/-- The address register of an `An` field; `00` is reserved and names none (30_encoding.md R67). -/
def aregOfBits (b : BitVec 2) : Option AReg :=
  match b.toNat with
  | 0 => none
  | 1 => some .a0
  | 2 => some .a1
  | _ => some .a2

/-- The `An` field of an address register, n + 1 (30_encoding.md R67). -/
def aregBits : AReg → BitVec 2
  | .a0 => 1
  | .a1 => 2
  | .a2 => 3

/-- The condition code of a 3-bit field (44_compare.md R160, 30_encoding.md R70). -/
def ccOfBits (b : BitVec 3) : CC :=
  match b.toNat with
  | 0 => .eq
  | 1 => .ne
  | 2 => .uge
  | 3 => .ult
  | 4 => .ge
  | 5 => .lt
  | 6 => .ugt
  | _ => .gt

/-- The encoding of a condition code (44_compare.md R160). -/
def ccBits : CC → BitVec 3
  | .eq => 0
  | .ne => 1
  | .uge => 2
  | .ult => 3
  | .ge => 4
  | .lt => 5
  | .ugt => 6
  | .gt => 7

/-- `Ri`. -/
def riF (w : Word) : Reg := regOfBits (destF w)
/-- `CC` of R-type `cmp` and `cpc`. -/
def ccF (w : Word) : CC := ccOfBits (destF w)
/-- `Rj`, bits 5:3. -/
def rjF (w : Word) : Reg := regOfBits (w.extractLsb' 3 3)
/-- `Rk`, bits 2:0. -/
def rkF (w : Word) : Reg := regOfBits (w.extractLsb' 0 3)

/-- The source field of R-type `mov` and `mvl`: `Rk`, by the parameter `R_MOV_SRC_FIELD` (45_move.md R180, log 13). -/
def movSrcF (w : Word) : Reg :=
  match Config.rMovSrcField with
  | .rk => rkF w
  | .rj => rjF w

/-! ## The decoder (30_encoding.md R77) -/

/-- Why a word is refused by the decoder. -/
inductive DecodeError where
  /-- The word is one of the undocumented words of 30_encoding.md R74. -/
  | undocumented (w : Word)
  deriving DecidableEq, Repr

/-- An undocumented word (30_encoding.md R74). -/
def undoc (w : Word) : Except DecodeError Instr := .error (.undocumented w)

/-- M-type words: `op` not 000 and base register `an` (30_encoding.md R61; rows 2 and 4 of R74 are refused). -/
def decodeM (an : AReg) (w : Word) : Except DecodeError Instr :=
  match (opF w).toNat, (sF w).toNat with
  | 2, 0 => .ok (.cmpML (riF w) an (immF w))
  | 3, 0 => .ok (.movML (riF w) an (immF w))
  | 3, 1 => .ok (.movMS (riF w) an (immF w))
  | 4, 0 => .ok (.addML (riF w) an (immF w))
  | 4, 1 => .ok (.addMS (riF w) an (immF w))
  | 5, 0 => .ok (.subML (riF w) an (immF w))
  | 5, 1 => .ok (.subMS (riF w) an (immF w))
  | 6, 0 => .ok (.andML (riF w) an (immF w))
  | 6, 1 => .ok (.andMS (riF w) an (immF w))
  | 7, 0 => .ok (.adtML (riF w) an (immF w))
  | 7, 1 => .ok (.adtMS (riF w) an (immF w))
  | _, _ => undoc w

/-- Mode 00: `pfx`, the special encodings, and M-type (30_encoding.md R65; rows 1, 3, 5 and 6 of R74 are refused). -/
def decodeMode0 (w : Word) : Except DecodeError Instr :=
  if (opF w).toNat = 0 then
    if (imm11F w).toNat = 0 then .ok .nop else .ok (.pfx (imm11F w))
  else
    match aregOfBits (fnF w) with
    | some an => decodeM an w
    | none =>
      match (opF w).toNat, (sF w).toNat with
      | 1, 0 => .ok .hlt
      | 3, 0 => .ok (.lp (riF w) (rkF w))
      | _, _ => undoc w

/-- Mode 01, ZP-type (30_encoding.md R62; rows 7, 8 and 9 of R74 are refused). -/
def decodeZ (w : Word) : Except DecodeError Instr :=
  match (opF w).toNat, (fnF w).toNat, (sF w).toNat with
  | 2, 0, 0 => .ok (.cmpZL (riF w) (immF w))
  | 2, 2, 0 => .ok (.cpcZL (riF w) (immF w))
  | 3, 0, 0 => .ok (.movZL (riF w) (immF w))
  | 3, 0, 1 => .ok (.movZS (riF w) (immF w))
  | 3, 1, 0 => .ok (.setZL (riF w) (immF w))
  | 3, 1, 1 => .ok (.setZS (riF w) (immF w))
  | 3, 2, 0 => .ok (.sefZL (riF w) (immF w))
  | 3, 2, 1 => .ok (.sefZS (riF w) (immF w))
  | 3, 3, 0 => .ok (.selZL (riF w) (immF w))
  | 3, 3, 1 => .ok (.selZS (riF w) (immF w))
  | 4, 0, 0 => .ok (.addZL (riF w) (immF w))
  | 4, 0, 1 => .ok (.addZS (riF w) (immF w))
  | 4, 1, 0 => .ok (.dadZL (riF w) (immF w))
  | 4, 1, 1 => .ok (.dadZS (riF w) (immF w))
  | 4, 2, 0 => .ok (.adcZL (riF w) (immF w))
  | 4, 2, 1 => .ok (.adcZS (riF w) (immF w))
  | 4, 3, 0 => .ok (.dacZL (riF w) (immF w))
  | 4, 3, 1 => .ok (.dacZS (riF w) (immF w))
  | 5, 0, 0 => .ok (.subZL (riF w) (immF w))
  | 5, 0, 1 => .ok (.subZS (riF w) (immF w))
  | 5, 1, 0 => .ok (.rsbZL (riF w) (immF w))
  | 5, 1, 1 => .ok (.rsbZS (riF w) (immF w))
  | 5, 2, 0 => .ok (.sbcZL (riF w) (immF w))
  | 5, 2, 1 => .ok (.sbcZS (riF w) (immF w))
  | 5, 3, 0 => .ok (.dscZL (riF w) (immF w))
  | 5, 3, 1 => .ok (.dscZS (riF w) (immF w))
  | 6, 0, 0 => .ok (.andZL (riF w) (immF w))
  | 6, 0, 1 => .ok (.andZS (riF w) (immF w))
  | 6, 1, 0 => .ok (.orZL (riF w) (immF w))
  | 6, 1, 1 => .ok (.orZS (riF w) (immF w))
  | 6, 2, 0 => .ok (.xorZL (riF w) (immF w))
  | 6, 2, 1 => .ok (.xorZS (riF w) (immF w))
  | 6, 3, 0 => .ok (.mvlZL (riF w) (immF w))
  | 6, 3, 1 => .ok (.mvlZS (riF w) (immF w))
  | 7, 0, 0 => .ok (.adtZL (riF w) (immF w))
  | 7, 0, 1 => .ok (.adtZS (riF w) (immF w))
  | 7, 1, 0 => .ok (.adfZL (riF w) (immF w))
  | 7, 1, 1 => .ok (.adfZS (riF w) (immF w))
  | 7, 2, 0 => .ok (.sbtZL (riF w) (immF w))
  | 7, 2, 1 => .ok (.sbtZS (riF w) (immF w))
  | 7, 3, 0 => .ok (.sbfZL (riF w) (immF w))
  | 7, 3, 1 => .ok (.sbfZS (riF w) (immF w))
  | _, _, _ => undoc w

/-- Mode 10, R-type (30_encoding.md R63; row 10 of R74 is refused). -/
def decodeR (w : Word) : Except DecodeError Instr :=
  match (opF w).toNat, (fnF w).toNat with
  | 0, 0 => .ok (.sr1R (riF w) (rjF w))
  | 0, 1 => .ok (.rr1R (riF w) (rjF w) (rkF w))
  | 0, 2 => .ok (.sr4R (riF w) (rjF w))
  | 0, 3 => .ok (.rr4R (riF w) (rjF w) (rkF w))
  | 1, 0 => .ok (.sl1R (riF w) (rjF w))
  | 1, 1 => .ok (.rl1R (riF w) (rjF w) (rkF w))
  | 1, 2 => .ok (.sl4R (riF w) (rjF w))
  | 1, 3 => .ok (.rl4R (riF w) (rjF w) (rkF w))
  | 2, 0 => .ok (.cmpR (ccF w) (rjF w) (rkF w))
  | 2, 2 => .ok (.cpcR (ccF w) (rjF w) (rkF w))
  | 3, 0 => .ok (.movR (riF w) (movSrcF w))
  | 3, 1 => .ok (.setR (riF w) (rkF w))
  | 3, 2 => .ok (.sefR (riF w) (rkF w))
  | 3, 3 => .ok (.selR (riF w) (rjF w) (rkF w))
  | 4, 0 => .ok (.addR (riF w) (rjF w) (rkF w))
  | 4, 1 => .ok (.dadR (riF w) (rjF w) (rkF w))
  | 4, 2 => .ok (.adcR (riF w) (rjF w) (rkF w))
  | 4, 3 => .ok (.dacR (riF w) (rjF w) (rkF w))
  | 5, 0 => .ok (.subR (riF w) (rjF w) (rkF w))
  | 5, 1 => .ok (.rsbR (riF w) (rjF w) (rkF w))
  | 5, 2 => .ok (.sbcR (riF w) (rjF w) (rkF w))
  | 5, 3 => .ok (.dscR (riF w) (rjF w) (rkF w))
  | 6, 0 => .ok (.andR (riF w) (rjF w) (rkF w))
  | 6, 1 => .ok (.orR (riF w) (rjF w) (rkF w))
  | 6, 2 => .ok (.xorR (riF w) (rjF w) (rkF w))
  | 6, 3 => .ok (.mvlR (riF w) (movSrcF w))
  | 7, 0 => .ok (.adtR (riF w) (rjF w) (rkF w))
  | 7, 1 => .ok (.adfR (riF w) (rjF w) (rkF w))
  | 7, 2 => .ok (.sbtR (riF w) (rjF w) (rkF w))
  | 7, 3 => .ok (.sbfR (riF w) (rjF w) (rkF w))
  | _, _ => undoc w

/-- Mode 11 with `Ri = 7`: the eight branch names (30_encoding.md R76, 47_branch_link.md R210; rows 12 to 18 of R74 are
refused). -/
def decodeJ (w : Word) : Except DecodeError Instr :=
  match (opF w).toNat, (fnF w).toNat with
  | 3, 0 => .ok (.j (immF w))
  | 4, 0 => .ok (.bPlus (immF w))
  | 5, 0 => .ok (.bMinus (immF w))
  | 6, 3 => .ok (.jl (immF w))
  | 7, 0 => .ok (.btPlus (immF w))
  | 7, 1 => .ok (.bfPlus (immF w))
  | 7, 2 => .ok (.btMinus (immF w))
  | 7, 3 => .ok (.bfMinus (immF w))
  | _, _ => undoc w

/-- Mode 11 with `Ri` in 0 to 6 (30_encoding.md R64; rows 12 and 13 of R74 are refused). -/
def decodeGprI (w : Word) : Except DecodeError Instr :=
  match (opF w).toNat, (fnF w).toNat with
  | 2, 0 => .ok (.cmpI (riF w) (immF w))
  | 2, 2 => .ok (.cpcI (riF w) (immF w))
  | 3, 0 => .ok (.movI (riF w) (immF w))
  | 3, 1 => .ok (.setI (riF w) (immF w))
  | 3, 2 => .ok (.sefI (riF w) (immF w))
  | 3, 3 => .ok (.selI (riF w) (immF w))
  | 4, 0 => .ok (.addI (riF w) (immF w))
  | 4, 1 => .ok (.dadI (riF w) (immF w))
  | 4, 2 => .ok (.adcI (riF w) (immF w))
  | 4, 3 => .ok (.dacI (riF w) (immF w))
  | 5, 0 => .ok (.subI (riF w) (immF w))
  | 5, 1 => .ok (.rsbI (riF w) (immF w))
  | 5, 2 => .ok (.sbcI (riF w) (immF w))
  | 5, 3 => .ok (.dscI (riF w) (immF w))
  | 6, 0 => .ok (.andI (riF w) (immF w))
  | 6, 1 => .ok (.orI (riF w) (immF w))
  | 6, 2 => .ok (.xorI (riF w) (immF w))
  | 6, 3 => .ok (.mvlI (riF w) (immF w))
  | 7, 0 => .ok (.adtI (riF w) (immF w))
  | 7, 1 => .ok (.adfI (riF w) (immF w))
  | 7, 2 => .ok (.sbtI (riF w) (immF w))
  | 7, 3 => .ok (.sbfI (riF w) (immF w))
  | _, _ => undoc w

/-- Mode 11, I-type: bit 5 is 0 (30_encoding.md R64; row 11 of R74 is refused). -/
def decodeI (w : Word) : Except DecodeError Instr :=
  if (sF w).toNat = 1 then undoc w
  else if (destF w).toNat = 7 then decodeJ w
  else decodeGprI w

/-- The decoder: every 16-bit word is an instruction or is refused as undocumented (30_encoding.md R77). -/
def decode (w : Word) : Except DecodeError Instr :=
  match (modeF w).toNat with
  | 0 => decodeMode0 w
  | 1 => decodeZ w
  | 2 => decodeR w
  | _ => decodeI w

/-! ## The encoder (30_encoding.md R61 to R65, R73) -/

/-- A word from its `Mode`, `op`, bits 10:8, bits 7:6 and bits 5:0. -/
def packWord (mode : BitVec 2) (op dest : BitVec 3) (fn : BitVec 2) (low : BitVec 6) : Word :=
  mode ++ op ++ dest ++ fn ++ low

/-- An M-type word (30_encoding.md R61). -/
def packM (op : BitVec 3) (ri : Reg) (an : AReg) (s : BitVec 1) (k : Imm5) : Word :=
  packWord 0 op (regBits ri) (aregBits an) (s ++ k)

/-- A ZP-type word (30_encoding.md R62). -/
def packZ (op : BitVec 3) (ri : Reg) (fn : BitVec 2) (s : BitVec 1) (k : Imm5) : Word :=
  packWord 1 op (regBits ri) fn (s ++ k)

/-- An R-type word (30_encoding.md R63). -/
def packR (op dest : BitVec 3) (fn : BitVec 2) (rj rk : Reg) : Word :=
  packWord 2 op dest fn (regBits rj ++ regBits rk)

/-- An I-type word (30_encoding.md R64). -/
def packI (op : BitVec 3) (ri : Reg) (fn : BitVec 2) (k : Imm5) : Word :=
  packWord 3 op (regBits ri) fn ((0 : BitVec 1) ++ k)

/-- The word of an instruction. An ignored source field repeats the register of the field that is read and don't-care
bits are 0, as in the spec's own encodings (30_encoding.md R75, log 30). -/
def encode : Instr → Word
  | .nop => 0x0000
  | .pfx k => (0 : BitVec 5) ++ k
  | .hlt => 0x0800
  | .lp ri rk => packWord 0 3 (regBits ri) 0 ((0 : BitVec 3) ++ regBits rk)
  | .cmpML ri an k => packM 2 ri an 0 k
  | .movML ri an k => packM 3 ri an 0 k
  | .movMS ri an k => packM 3 ri an 1 k
  | .addML ri an k => packM 4 ri an 0 k
  | .addMS ri an k => packM 4 ri an 1 k
  | .subML ri an k => packM 5 ri an 0 k
  | .subMS ri an k => packM 5 ri an 1 k
  | .andML ri an k => packM 6 ri an 0 k
  | .andMS ri an k => packM 6 ri an 1 k
  | .adtML ri an k => packM 7 ri an 0 k
  | .adtMS ri an k => packM 7 ri an 1 k
  | .cmpZL ri k => packZ 2 ri 0 0 k
  | .cpcZL ri k => packZ 2 ri 2 0 k
  | .movZL ri k => packZ 3 ri 0 0 k
  | .movZS ri k => packZ 3 ri 0 1 k
  | .setZL ri k => packZ 3 ri 1 0 k
  | .setZS ri k => packZ 3 ri 1 1 k
  | .sefZL ri k => packZ 3 ri 2 0 k
  | .sefZS ri k => packZ 3 ri 2 1 k
  | .selZL ri k => packZ 3 ri 3 0 k
  | .selZS ri k => packZ 3 ri 3 1 k
  | .addZL ri k => packZ 4 ri 0 0 k
  | .addZS ri k => packZ 4 ri 0 1 k
  | .dadZL ri k => packZ 4 ri 1 0 k
  | .dadZS ri k => packZ 4 ri 1 1 k
  | .adcZL ri k => packZ 4 ri 2 0 k
  | .adcZS ri k => packZ 4 ri 2 1 k
  | .dacZL ri k => packZ 4 ri 3 0 k
  | .dacZS ri k => packZ 4 ri 3 1 k
  | .subZL ri k => packZ 5 ri 0 0 k
  | .subZS ri k => packZ 5 ri 0 1 k
  | .rsbZL ri k => packZ 5 ri 1 0 k
  | .rsbZS ri k => packZ 5 ri 1 1 k
  | .sbcZL ri k => packZ 5 ri 2 0 k
  | .sbcZS ri k => packZ 5 ri 2 1 k
  | .dscZL ri k => packZ 5 ri 3 0 k
  | .dscZS ri k => packZ 5 ri 3 1 k
  | .andZL ri k => packZ 6 ri 0 0 k
  | .andZS ri k => packZ 6 ri 0 1 k
  | .orZL ri k => packZ 6 ri 1 0 k
  | .orZS ri k => packZ 6 ri 1 1 k
  | .xorZL ri k => packZ 6 ri 2 0 k
  | .xorZS ri k => packZ 6 ri 2 1 k
  | .mvlZL ri k => packZ 6 ri 3 0 k
  | .mvlZS ri k => packZ 6 ri 3 1 k
  | .adtZL ri k => packZ 7 ri 0 0 k
  | .adtZS ri k => packZ 7 ri 0 1 k
  | .adfZL ri k => packZ 7 ri 1 0 k
  | .adfZS ri k => packZ 7 ri 1 1 k
  | .sbtZL ri k => packZ 7 ri 2 0 k
  | .sbtZS ri k => packZ 7 ri 2 1 k
  | .sbfZL ri k => packZ 7 ri 3 0 k
  | .sbfZS ri k => packZ 7 ri 3 1 k
  | .sr1R ri rj => packR 0 (regBits ri) 0 rj rj
  | .rr1R ri rj rk => packR 0 (regBits ri) 1 rj rk
  | .sr4R ri rj => packR 0 (regBits ri) 2 rj rj
  | .rr4R ri rj rk => packR 0 (regBits ri) 3 rj rk
  | .sl1R ri rj => packR 1 (regBits ri) 0 rj rj
  | .rl1R ri rj rk => packR 1 (regBits ri) 1 rj rk
  | .sl4R ri rj => packR 1 (regBits ri) 2 rj rj
  | .rl4R ri rj rk => packR 1 (regBits ri) 3 rj rk
  | .cmpR cc rj rk => packR 2 (ccBits cc) 0 rj rk
  | .cpcR cc rj rk => packR 2 (ccBits cc) 2 rj rk
  | .movR ri rk => packR 3 (regBits ri) 0 rk rk
  | .setR ri rk => packR 3 (regBits ri) 1 rk rk
  | .sefR ri rk => packR 3 (regBits ri) 2 rk rk
  | .selR ri rj rk => packR 3 (regBits ri) 3 rj rk
  | .addR ri rj rk => packR 4 (regBits ri) 0 rj rk
  | .dadR ri rj rk => packR 4 (regBits ri) 1 rj rk
  | .adcR ri rj rk => packR 4 (regBits ri) 2 rj rk
  | .dacR ri rj rk => packR 4 (regBits ri) 3 rj rk
  | .subR ri rj rk => packR 5 (regBits ri) 0 rj rk
  | .rsbR ri rj rk => packR 5 (regBits ri) 1 rj rk
  | .sbcR ri rj rk => packR 5 (regBits ri) 2 rj rk
  | .dscR ri rj rk => packR 5 (regBits ri) 3 rj rk
  | .andR ri rj rk => packR 6 (regBits ri) 0 rj rk
  | .orR ri rj rk => packR 6 (regBits ri) 1 rj rk
  | .xorR ri rj rk => packR 6 (regBits ri) 2 rj rk
  | .mvlR ri rk => packR 6 (regBits ri) 3 rk rk
  | .adtR ri rj rk => packR 7 (regBits ri) 0 rj rk
  | .adfR ri rj rk => packR 7 (regBits ri) 1 rj rk
  | .sbtR ri rj rk => packR 7 (regBits ri) 2 rj rk
  | .sbfR ri rj rk => packR 7 (regBits ri) 3 rj rk
  | .cmpI ri k => packI 2 ri 0 k
  | .cpcI ri k => packI 2 ri 2 k
  | .movI ri k => packI 3 ri 0 k
  | .j k => packI 3 .pc 0 k
  | .setI ri k => packI 3 ri 1 k
  | .sefI ri k => packI 3 ri 2 k
  | .selI ri k => packI 3 ri 3 k
  | .addI ri k => packI 4 ri 0 k
  | .bPlus k => packI 4 .pc 0 k
  | .dadI ri k => packI 4 ri 1 k
  | .adcI ri k => packI 4 ri 2 k
  | .dacI ri k => packI 4 ri 3 k
  | .subI ri k => packI 5 ri 0 k
  | .bMinus k => packI 5 .pc 0 k
  | .rsbI ri k => packI 5 ri 1 k
  | .sbcI ri k => packI 5 ri 2 k
  | .dscI ri k => packI 5 ri 3 k
  | .andI ri k => packI 6 ri 0 k
  | .orI ri k => packI 6 ri 1 k
  | .xorI ri k => packI 6 ri 2 k
  | .mvlI ri k => packI 6 ri 3 k
  | .jl k => packI 6 .pc 3 k
  | .adtI ri k => packI 7 ri 0 k
  | .btPlus k => packI 7 .pc 0 k
  | .adfI ri k => packI 7 ri 1 k
  | .bfPlus k => packI 7 .pc 1 k
  | .sbtI ri k => packI 7 ri 2 k
  | .btMinus k => packI 7 .pc 2 k
  | .sbfI ri k => packI 7 ri 3 k
  | .bfMinus k => packI 7 .pc 3 k

/-- The host's entry: the instruction the decoder reads from the first word of `w`, bit 0 the least significant bit of
that word and every bit from `nbits` up taken as 0. Every instruction is one word (30_encoding.md R60). -/
def decodeTableWord (nbits w : Nat) : Option Instr :=
  match decode (BitVec.ofNat 16 (w % 2 ^ nbits)) with
  | .ok i => some i
  | .error _ => none

end Sys2Proof
end

