-- ==== Sys2Proof/Machine/State.lean ====
section
/-! DEFINITION. The state of one G6A-RISC, as plain data (10_state.md), the reasons a step can stop (60_exceptions.md R241),
and the state after reset (10_state.md R28, 70_reset_and_hazards.md R260). -/

namespace Sys2Proof.Machine

/-- The two address spaces (20_memory.md R40). -/
inductive Space where
  | prog
  | data
  deriving DecidableEq, Repr

/-- The model-level faults of 60_exceptions.md R241; the hardware itself has no exceptions (R240). -/
inductive Fault where
  /-- Raised by the fetch: the word at the program counter is one of the undocumented words of 30_encoding.md R74.
  Safe: the hardware does something that the spec does not describe (log 17). -/
  | undocumented (w : Word)
  /-- Raised by a fetch, `lp` or data access at an address that is not installed (20_memory.md R45, 00_scope.md R4). Safe;
  it cannot happen where all 65536 words are installed (log 7). -/
  | outOfRange (space : Space) (a : Word)
  /-- Raised by a fetch, `lp` or data read of a memory word that nothing has written (10_state.md R28). Safe: the
  hardware goes on with some value (log 6). -/
  | uninitialised (space : Space) (a : Word)
  deriving DecidableEq, Repr

/-- Why the model has no meaning for an instruction. -/
inductive Refusal where
  /-- Raised by `exec` for an instruction without a meaning; no arm raises it. Safe. -/
  | notModelled (mnemonic : String)
  deriving DecidableEq, Repr

/-- A memory: the words that something has written, each with its word address, in one canonical form (`Memory.wf`).
The cell is the 16-bit word, the smallest unit the hardware addresses (20_memory.md R43; log 1). -/
abbrev Memory := List (Nat × Word)

/-- What an address that is not listed reads as: it has no value (10_state.md R28; log 6). -/
def Memory.unlisted : Option Word := none

/-- The canonical form: addresses strictly rising and all below `words`, and no entry equal to what an unlisted address
reads as. -/
abbrev Memory.wf (words : Nat) (m : Memory) : Prop :=
  (m.map Prod.fst).Pairwise (· < ·) ∧ (∀ e ∈ m, e.1 < words) ∧ (∀ e ∈ m, some e.2 ≠ Memory.unlisted)

/-- The whole state of the machine (10_state.md). The last two fields are the model's own. -/
structure State where
  /-- R0 (10_state.md R10). -/
  r0 : Word
  /-- R1 (10_state.md R10). -/
  r1 : Word
  /-- R2 (10_state.md R10). -/
  r2 : Word
  /-- R3 (10_state.md R10). -/
  r3 : Word
  /-- R4 = A0 (10_state.md R11). -/
  r4 : Word
  /-- R5 = A1 (10_state.md R11). -/
  r5 : Word
  /-- R6 = A2 = LR (10_state.md R11, R14). -/
  r6 : Word
  /-- The program counter: before a step, the address of the instruction it will execute (10_state.md R15). -/
  pc : Word
  /-- The prefix register PFR (10_state.md R19). -/
  pfr : Imm11
  /-- The condition flag T (10_state.md R21). -/
  t : Bool
  /-- The carry flag C (10_state.md R22). -/
  c : Bool
  /-- The zero flag Z (10_state.md R23). -/
  z : Bool
  /-- The run state: the processor clock is stopped (10_state.md R26). -/
  halted : Bool
  /-- Program memory (20_memory.md R41). -/
  prog : Memory
  /-- Data memory (20_memory.md R42). -/
  data : Memory
  /-- `PROG_WORDS`: how many words of program memory this machine has; fixed (00_scope.md R4, 20_memory.md R41; log 7). -/
  progWords : Nat
  /-- `DATA_WORDS`: how many words of data memory this machine has; fixed (00_scope.md R4, 20_memory.md R42; log 7). -/
  dataWords : Nat
  /-- The model's own: instruction cycles executed so far (70_reset_and_hazards.md R266; log 27). -/
  cycles : Nat
  /-- The model's own: how many free Z values have been drawn from `Config.shiftZ` (log 14). -/
  freeCount : Nat
  deriving DecidableEq, Repr

/-- A machine with these parameters right after reset, before the host has loaded anything (10_state.md R28,
00_scope.md R4). `pc`, `pfr` and `halted` are the values the spec gives (log 4, log 5); the registers and flags, which the
spec leaves unspecified, are 0 (DESIGN CHOICE, log 2, log 3); no memory word has a value (log 6). -/
def State.resetOf (p : Config.Params) : State where
  r0 := 0
  r1 := 0
  r2 := 0
  r3 := 0
  r4 := 0
  r5 := 0
  r6 := 0
  pc := p.resetPc
  pfr := 0
  t := false
  c := false
  z := false
  halted := false
  prog := []
  data := []
  progWords := p.progWords
  dataWords := p.dataWords
  cycles := 0
  freeCount := 0

/-- The machine with the default parameters right after reset (00_scope.md R4; log 4, log 7). -/
def State.reset : State := State.resetOf Config.defaults

end Sys2Proof.Machine
end

