-- ==== Sys2Proof/Machine/Ops.lean ====
section
/-! DEFINITION. The named operations over registers and the two memories, and how an instruction ends
(20_memory.md R45, 40_cycle_and_prefix.md R90, R101). The hardware takes no exception (60_exceptions.md R240), so there is
no exception entry and no return from one; an operation that has no value to give ends the run in a model-level fault. -/

namespace Sys2Proof.Machine

/-- What a meaning answers. -/
abbrev Answer := Host.Outcome State Fault Refusal

/-- Go on with a value, or stop with the fault that kept it from being read. -/
def withVal {α : Type} (x : Except Fault α) (k : α → Answer) : Answer :=
  match x with
  | .ok a => k a
  | .error f => .fault f

/-! ## Memories -/

/-- The word at address `a`, if one has been written. -/
def Memory.read : Memory → Nat → Option Word
  | [], _ => Memory.unlisted
  | (b, w) :: m, a => if b = a then some w else Memory.read m a

/-- Replace the word at address `a`, keeping the canonical form. -/
def Memory.write : Memory → Nat → Word → Memory
  | [], a, v => [(a, v)]
  | (b, w) :: m, a, v =>
    if a < b then (a, v) :: (b, w) :: m
    else if a = b then (a, v) :: m
    else (b, w) :: Memory.write m a v

/-- A memory read: a fault at an address that is not installed, or at a word that nothing has written
(20_memory.md R45, 60_exceptions.md R241). -/
def readWord (space : Space) (words : Nat) (m : Memory) (a : Word) : Except Fault Word :=
  if a.toNat < words then
    match m.read a.toNat with
    | some v => .ok v
    | none => .error (.uninitialised space a)
  else .error (.outOfRange space a)

/-- `MemRead(a, 1)` (20_memory.md R45). -/
def State.readData (s : State) (a : Word) : Except Fault Word :=
  readWord .data s.dataWords s.data a

/-- `ProgRead(a)` (20_memory.md R45). -/
def State.readProg (s : State) (a : Word) : Except Fault Word :=
  readWord .prog s.progWords s.prog a

/-- `MemWrite(a, 1, v)` (20_memory.md R45). -/
def State.writeData (s : State) (a v : Word) : Except Fault State :=
  if a.toNat < s.dataWords then .ok { s with data := s.data.write a.toNat v }
  else .error (.outOfRange .data a)

/-! ## Registers -/

/-- The value an instruction obtains from register 7: the address of the instruction being executed, plus
`PC_SRC_BIAS` (10_state.md R16, log 8). -/
def State.pcRead (s : State) : Word := s.pc + Config.pcSrcBias

/-- `x[r]` (10_state.md R10, R16). -/
def State.readReg (s : State) : Reg → Word
  | .r0 => s.r0
  | .r1 => s.r1
  | .r2 => s.r2
  | .r3 => s.r3
  | .r4 => s.r4
  | .r5 => s.r5
  | .r6 => s.r6
  | .pc => s.pcRead

/-- `x[r] <- v`: no register is hard-wired (10_state.md R12), and writing register 7 is a jump (R17). -/
def State.writeReg (s : State) (r : Reg) (v : Word) : State :=
  match r with
  | .r0 => { s with r0 := v }
  | .r1 => { s with r1 := v }
  | .r2 => { s with r2 := v }
  | .r3 => { s with r3 := v }
  | .r4 => { s with r4 := v }
  | .r5 => { s with r5 := v }
  | .r6 => { s with r6 := v }
  | .pc => { s with pc := v }

/-- `(iaddr + 1) mod 65536`, the address of the following instruction (10_state.md R15, log 9). -/
def State.nextPc (s : State) : Word := s.pc + 1

/-! ## How an instruction ends -/

/-- The end of an instruction other than `pfx` that does not jump: PFR is cleared and `pc` moves to the following
instruction (40_cycle_and_prefix.md R90, R95; log 10). One instruction cycle has passed (70_reset_and_hazards.md R266). -/
def State.retire (s : State) : State :=
  { s with pc := s.nextPc, pfr := 0, cycles := s.cycles + 1 }

/-- Where an instruction puts its result (40_cycle_and_prefix.md R101). -/
inductive Dest where
  | reg (r : Reg)
  | mem (ea : Word)
  deriving DecidableEq, Repr

/-- `write(DEST, v)` as the last act of an instruction; a write of register 7 replaces the `pc` that `retire` set
(40_cycle_and_prefix.md R90, R101; 10_state.md R17). -/
def finish (s : State) (d : Dest) (v : Word) : Answer :=
  match d with
  | .reg r => .next (s.retire.writeReg r v)
  | .mem ea => withVal (s.retire.writeData ea v) fun t => .next t

/-- The end of an instruction that writes no destination (40_cycle_and_prefix.md R101). -/
def finishNone (s : State) : Answer := .next s.retire

/-! ## Fetch and load -/

/-- Fetch and decode the instruction at `pc`; an undocumented word is the model-level fault of 60_exceptions.md R241
(40_cycle_and_prefix.md R90). -/
def State.fetch (s : State) : Except Fault Instr :=
  match s.readProg s.pc with
  | .error f => .error f
  | .ok w =>
    match decode w with
    | .ok i => .ok i
    | .error (.undocumented u) => .error (.undocumented u)

/-- The host puts a word into program memory; an address that is not installed has no cell to put it in
(92_eei_decisions.md D13). -/
def State.pokeProg (s : State) (a v : Word) : State :=
  if a.toNat < s.progWords then { s with prog := s.prog.write a.toNat v } else s

/-- The host puts a word into data memory (92_eei_decisions.md D13). -/
def State.pokeData (s : State) (a v : Word) : State :=
  if a.toNat < s.dataWords then { s with data := s.data.write a.toNat v } else s

/-- The host loads words into program memory from address `a` on, before a run (92_eei_decisions.md D13, log 31). -/
def State.loadProg (s : State) (a : Word) : List Word → State
  | [] => s
  | w :: ws => State.loadProg (s.pokeProg a w) (a + 1) ws

/-- The host loads words into data memory from address `a` on, before a run (92_eei_decisions.md D13). -/
def State.loadData (s : State) (a : Word) : List Word → State
  | [] => s
  | w :: ws => State.loadData (s.pokeData a w) (a + 1) ws

/-- Place the first word of `w` (bits from `nbits` up taken as 0) where the next step fetches, with the clock running. -/
def State.placeFetchWord (s : State) (nbits w : Nat) : State :=
  State.pokeProg { s with halted := false } s.pc (BitVec.ofNat 16 (w % 2 ^ nbits))

end Sys2Proof.Machine
end

