-- ==== Sys2Proof/Machine/Alu.lean ====
section
/-! DEFINITION. What the ALU computes: binary addition and subtraction (41_arithmetic.md R110), BCD (R121), and the
shifts and rotates (43_shift_rotate.md R140). -/

namespace Sys2Proof.Machine

/-- Result, carry out and signed overflow of an addition. -/
structure Sum where
  r : Word
  cout : Bool
  v : Bool
  deriving DecidableEq, Repr

/-- `add16(a, b, cin)` (41_arithmetic.md R110). -/
def add16 (a b : Word) (cin : Bool) : Sum :=
  let t := a.toNat + b.toNat + cin.toNat
  let r := BitVec.ofNat 16 t
  { r := r, cout := decide (65536 ≤ t), v := (a.msb == b.msb) && (r.msb != a.msb) }

/-- `p - q - borrow` performed as `add16(p, ~q, 1 - borrow)`, with `cin = 1 - borrow` (41_arithmetic.md R110). -/
def sub16 (p q : Word) (cin : Bool) : Sum := add16 p (~~~q) cin

/-! ## BCD (41_arithmetic.md R121; PRESUMED, log 16) -/

/-- Decimal digit `i` of a word, the units in digit 0. -/
def bcdDigit (a : Word) (i : Nat) : Nat := a.toNat / 16 ^ i % 16

/-- Every digit is at most 9. -/
def bcdValid (a : Word) : Bool :=
  decide (bcdDigit a 0 ≤ 9) && decide (bcdDigit a 1 ≤ 9) && decide (bcdDigit a 2 ≤ 9) && decide (bcdDigit a 3 ≤ 9)

/-- `dec(a)`, the number a valid BCD word stands for. -/
def bcdDec (a : Word) : Nat :=
  bcdDigit a 3 * 1000 + bcdDigit a 2 * 100 + bcdDigit a 1 * 10 + bcdDigit a 0

/-- The valid BCD word of a number below 10000. -/
def bcdWord (n : Nat) : Word :=
  BitVec.ofNat 16 (n / 1000 % 10 * 4096 + n / 100 % 10 * 256 + n / 10 % 10 * 16 + n % 10)

/-- `bcd_add(a, b, cin)` on valid operands: result and decimal carry. -/
def bcdAdd (a b : Word) (cin : Bool) : Word × Bool :=
  let t := bcdDec a + bcdDec b + cin.toNat
  (bcdWord (t % 10000), decide (10000 ≤ t))

/-- `bcd_sub(p, q, cin)` on valid operands: result and carry, which is no borrow. -/
def bcdSub (p q : Word) (cin : Bool) : Word × Bool :=
  let t : Int := (bcdDec p : Int) - (bcdDec q : Int) - (1 - (cin.toNat : Int))
  (bcdWord (t % 10000).toNat, decide (0 ≤ t))

/-- A BCD operation on any operands: where a digit is above 9 the result and the carry are the free value
`Config.bcdInvalid` (41_arithmetic.md R121, log 15). -/
def bcdOp (op : BcdOp) (a b : Word) (cin : Bool) : Word × Bool :=
  if bcdValid a && bcdValid b then
    match op with
    | .dsc => bcdSub a b cin
    | _ => bcdAdd a b cin
  else Config.bcdInvalid op a b cin

/-! ## Shifts and rotates (43_shift_rotate.md R140) -/

/-- The value written, and whether any bit that left was 1. -/
structure Shifted where
  r : Word
  out : Bool
  deriving DecidableEq, Repr

/-- `a` shifted right by `n`, the vacated high bits taken from the low `n` bits of `b`. -/
def funnelRight (n : Nat) (a b : Word) : Shifted :=
  { r := a >>> n ||| b <<< (16 - n), out := a.extractLsb' 0 n != 0 }

/-- `a` shifted left by `n`, the vacated low bits taken from the high `n` bits of `b`. -/
def funnelLeft (n : Nat) (a b : Word) : Shifted :=
  { r := a <<< n ||| b >>> (16 - n), out := a.extractLsb' (16 - n) n != 0 }

end Sys2Proof.Machine
end

