-- ==== Sys2Proof/Machine/Flags.lean ====
section
/-! DEFINITION. How the flags T, C, Z are computed (10_state.md R21 to R24 and section 5). -/

namespace Sys2Proof.Machine

/-- Arithmetic flags: C the carry, Z "the result is zero", T a copy of the new Z (41_arithmetic.md R111, R115). -/
def State.setArith (s : State) (r : Word) (carry : Bool) : State :=
  { s with c := carry, z := r == 0, t := r == 0 }

/-- Flags of a carry-in instruction: the new Z is the old Z and "the result is zero", T its copy
(41_arithmetic.md R120; log 19). -/
def State.setCarryIn (s : State) (r : Word) (carry : Bool) : State :=
  { s with c := carry, z := s.z && r == 0, t := s.z && r == 0 }

/-- Bitwise flags: C is cleared, Z and T say that the result is zero (42_bitwise.md R130). -/
def State.setBitwise (s : State) (r : Word) : State := s.setArith r false

/-- Flags of a shift or rotate: C and T say that a bit that left was 1; Z is a fresh free value
(43_shift_rotate.md R149; log 14, log 34). -/
def State.setShift (s : State) (out : Bool) : State :=
  { s with c := out, t := out, z := Config.shiftZ s.freeCount, freeCount := s.freeCount + 1 }

/-- `cond(cc)` over the C, Z, S and V of a comparing subtraction (44_compare.md R160). -/
def cond (cc : CC) (c z s v : Bool) : Bool :=
  match cc with
  | .eq => z
  | .ne => !z
  | .uge => c
  | .ult => !c
  | .ge => s == v
  | .lt => s != v
  | .ugt => c && !z
  | .gt => (s == v) && !z

/-- Flags of a compare whose subtraction gave `d` and whose zero indication is `znew`: C, Z as the subtraction sets them,
T the condition, with S the sign of the difference and V its signed overflow (44_compare.md R161 to R163; log 26,
log 32). -/
def State.setCompare (s : State) (cc : CC) (d : Sum) (znew : Bool) : State :=
  { s with c := d.cout, z := znew, t := cond cc d.cout znew d.r.msb d.v }

end Sys2Proof.Machine
end

