-- ==== Sys2Proof/Machine/Operands.lean ====
section
/-! DEFINITION. Operand resolution (30_encoding.md R72, 40_cycle_and_prefix.md R94, R100; 20_memory.md R46, R47). -/

namespace Sys2Proof.Machine

/-- The register an address register names: base register number `3 + An` (30_encoding.md R67). -/
def baseReg : AReg → Reg
  | .a0 => .r4
  | .a1 => .r5
  | .a2 => .r6

/-- `IMM16 = (PFR << 5) | imm` (40_cycle_and_prefix.md R94). -/
def State.imm16 (s : State) (k : Imm5) : Word :=
  (s.pfr.setWidth 16 <<< 5) ||| k.setWidth 16

/-- The two ways to address data memory (20_memory.md R42). -/
inductive Addr where
  /-- M-type, `[An, K]`. -/
  | indexed (an : AReg) (k : Imm5)
  /-- ZP-type, `[K]`. -/
  | direct (k : Imm5)
  deriving DecidableEq, Repr

/-- The effective address `EA`: base register plus `IMM16` modulo 65536 (20_memory.md R46; log 9), or `IMM16` (R47). -/
def State.ea (s : State) : Addr → Word
  | .indexed an k => s.readReg (baseReg an) + s.imm16 k
  | .direct k => s.imm16 k

/-- The operand forms (40_cycle_and_prefix.md R100). An R-type instruction with one source has its register in both
source fields here. -/
inductive Form where
  /-- I-type, `K, Ri`. -/
  | imm (ri : Reg) (k : Imm5)
  /-- R-type, `Rj, Rk, Ri`. -/
  | regs (ri rj rk : Reg)
  /-- M- or ZP-type load, `[mem], Ri`. -/
  | load (ri : Reg) (a : Addr)
  /-- M- or ZP-type store, `Ri, [mem]`. -/
  | store (ri : Reg) (a : Addr)
  deriving DecidableEq, Repr

/-- `S1` (40_cycle_and_prefix.md R100). Memory is read only where the meaning asks for the value (20_memory.md R49;
log 28). -/
def Form.src1 (f : Form) (s : State) : Except Fault Word :=
  match f with
  | .imm ri _ => .ok (s.readReg ri)
  | .regs _ rj _ => .ok (s.readReg rj)
  | .load ri _ => .ok (s.readReg ri)
  | .store _ a => s.readData (s.ea a)

/-- `S2` (40_cycle_and_prefix.md R100). -/
def Form.src2 (f : Form) (s : State) : Except Fault Word :=
  match f with
  | .imm _ k => .ok (s.imm16 k)
  | .regs _ _ rk => .ok (s.readReg rk)
  | .load _ a => s.readData (s.ea a)
  | .store ri _ => .ok (s.readReg ri)

/-- `DEST` (40_cycle_and_prefix.md R100). -/
def Form.dest (f : Form) (s : State) : Dest :=
  match f with
  | .imm ri _ => .reg ri
  | .regs ri _ _ => .reg ri
  | .load ri _ => .reg ri
  | .store _ a => .mem (s.ea a)

/-- Read `S1` and `S2`, or stop with the fault of the read that has no value. -/
def Form.withSources (f : Form) (s : State) (k : Word → Word → Answer) : Answer :=
  withVal (f.src1 s) fun s1 => withVal (f.src2 s) fun s2 => k s1 s2

/-- Whether the `sub` order of this form is `S2 - S1`, as in the store forms, or `S1 - S2` (41_arithmetic.md R119;
log 11, log 12). -/
def Form.subSwapped : Form → Bool
  | .store _ _ => Config.subStoreOrder == .regMinusMem
  | _ => false

/-- Minuend and subtrahend in the order of `sub` (41_arithmetic.md R119), from `S1` and `S2`. -/
def Form.subOrder (f : Form) (s1 s2 : Word) : Word × Word :=
  if f.subSwapped then (s2, s1) else (s1, s2)

/-- Read minuend `p` and subtrahend `q` in the order of `sub` (41_arithmetic.md R119). -/
def Form.withSub (f : Form) (s : State) (k : Word → Word → Answer) : Answer :=
  f.withSources s fun s1 s2 => k (f.subOrder s1 s2).1 (f.subOrder s1 s2).2

end Sys2Proof.Machine
end

