-- ==== Sys2Proof/Machine/Arithmetic.lean ====
section
/-! DEFINITION. The arithmetic instructions (41_arithmetic.md). -/

namespace Sys2Proof.Machine

/-- `add` in any form (41_arithmetic.md R111). -/
def aluAdd (f : Form) (s : State) : Answer :=
  f.withSources s fun s1 s2 =>
    finish (s.setArith (add16 s1 s2 false).r (add16 s1 s2 false).cout) (f.dest s) (add16 s1 s2 false).r

/-- `add [An, K], Ri` (41_arithmetic.md R111). -/
def execAddML (ri : Reg) (an : AReg) (k : Imm5) (s : State) : Answer := aluAdd (.load ri (.indexed an k)) s

/-- `add Ri, [An, K]` (41_arithmetic.md R111). -/
def execAddMS (ri : Reg) (an : AReg) (k : Imm5) (s : State) : Answer := aluAdd (.store ri (.indexed an k)) s

/-- `add [M], Ri` (41_arithmetic.md R111). -/
def execAddZL (ri : Reg) (k : Imm5) (s : State) : Answer := aluAdd (.load ri (.direct k)) s

/-- `add Ri, [M]` (41_arithmetic.md R111). -/
def execAddZS (ri : Reg) (k : Imm5) (s : State) : Answer := aluAdd (.store ri (.direct k)) s

/-- `add Rj, Rk, Ri` (41_arithmetic.md R111). -/
def execAddR (ri rj rk : Reg) (s : State) : Answer := aluAdd (.regs ri rj rk) s

/-- `add K, Ri` (41_arithmetic.md R111). -/
def execAddI (ri : Reg) (k : Imm5) (s : State) : Answer := aluAdd (.imm ri k) s

/-- `dad` in any form (41_arithmetic.md R112). -/
def aluDad (f : Form) (s : State) : Answer :=
  f.withSources s fun s1 s2 =>
    finish (s.setArith (bcdOp .dad s1 s2 false).1 (bcdOp .dad s1 s2 false).2) (f.dest s) (bcdOp .dad s1 s2 false).1

/-- `dad [M], Ri` (41_arithmetic.md R112). -/
def execDadZL (ri : Reg) (k : Imm5) (s : State) : Answer := aluDad (.load ri (.direct k)) s

/-- `dad Ri, [M]` (41_arithmetic.md R112). -/
def execDadZS (ri : Reg) (k : Imm5) (s : State) : Answer := aluDad (.store ri (.direct k)) s

/-- `dad Rj, Rk, Ri` (41_arithmetic.md R112). -/
def execDadR (ri rj rk : Reg) (s : State) : Answer := aluDad (.regs ri rj rk) s

/-- `dad K, Ri` (41_arithmetic.md R112). -/
def execDadI (ri : Reg) (k : Imm5) (s : State) : Answer := aluDad (.imm ri k) s

/-- `adc` in any form (41_arithmetic.md R113). -/
def aluAdc (f : Form) (s : State) : Answer :=
  f.withSources s fun s1 s2 =>
    finish (s.setCarryIn (add16 s1 s2 s.c).r (add16 s1 s2 s.c).cout) (f.dest s) (add16 s1 s2 s.c).r

/-- `adc [M], Ri` (41_arithmetic.md R113). -/
def execAdcZL (ri : Reg) (k : Imm5) (s : State) : Answer := aluAdc (.load ri (.direct k)) s

/-- `adc Ri, [M]` (41_arithmetic.md R113). -/
def execAdcZS (ri : Reg) (k : Imm5) (s : State) : Answer := aluAdc (.store ri (.direct k)) s

/-- `adc Rj, Rk, Ri` (41_arithmetic.md R113). -/
def execAdcR (ri rj rk : Reg) (s : State) : Answer := aluAdc (.regs ri rj rk) s

/-- `adc K, Ri` (41_arithmetic.md R113). -/
def execAdcI (ri : Reg) (k : Imm5) (s : State) : Answer := aluAdc (.imm ri k) s

/-- `dac` in any form (41_arithmetic.md R114). -/
def aluDac (f : Form) (s : State) : Answer :=
  f.withSources s fun s1 s2 =>
    finish (s.setCarryIn (bcdOp .dac s1 s2 s.c).1 (bcdOp .dac s1 s2 s.c).2) (f.dest s) (bcdOp .dac s1 s2 s.c).1

/-- `dac [M], Ri` (41_arithmetic.md R114). -/
def execDacZL (ri : Reg) (k : Imm5) (s : State) : Answer := aluDac (.load ri (.direct k)) s

/-- `dac Ri, [M]` (41_arithmetic.md R114). -/
def execDacZS (ri : Reg) (k : Imm5) (s : State) : Answer := aluDac (.store ri (.direct k)) s

/-- `dac Rj, Rk, Ri` (41_arithmetic.md R114). -/
def execDacR (ri rj rk : Reg) (s : State) : Answer := aluDac (.regs ri rj rk) s

/-- `dac K, Ri` (41_arithmetic.md R114). -/
def execDacI (ri : Reg) (k : Imm5) (s : State) : Answer := aluDac (.imm ri k) s

/-- `sub` in any form (41_arithmetic.md R115). -/
def aluSub (f : Form) (s : State) : Answer :=
  f.withSub s fun p q =>
    finish (s.setArith (sub16 p q true).r (sub16 p q true).cout) (f.dest s) (sub16 p q true).r

/-- `sub [An, K], Ri` (41_arithmetic.md R115). -/
def execSubML (ri : Reg) (an : AReg) (k : Imm5) (s : State) : Answer := aluSub (.load ri (.indexed an k)) s

/-- `sub Ri, [An, K]` (41_arithmetic.md R115). -/
def execSubMS (ri : Reg) (an : AReg) (k : Imm5) (s : State) : Answer := aluSub (.store ri (.indexed an k)) s

/-- `sub [M], Ri` (41_arithmetic.md R115). -/
def execSubZL (ri : Reg) (k : Imm5) (s : State) : Answer := aluSub (.load ri (.direct k)) s

/-- `sub Ri, [M]` (41_arithmetic.md R115). -/
def execSubZS (ri : Reg) (k : Imm5) (s : State) : Answer := aluSub (.store ri (.direct k)) s

/-- `sub Rj, Rk, Ri` (41_arithmetic.md R115). -/
def execSubR (ri rj rk : Reg) (s : State) : Answer := aluSub (.regs ri rj rk) s

/-- `sub K, Ri` (41_arithmetic.md R115). -/
def execSubI (ri : Reg) (k : Imm5) (s : State) : Answer := aluSub (.imm ri k) s

/-- `rsb` in any form: `sub` with minuend and subtrahend exchanged (41_arithmetic.md R116, R119). -/
def aluRsb (f : Form) (s : State) : Answer :=
  f.withSub s fun q p =>
    finish (s.setArith (sub16 p q true).r (sub16 p q true).cout) (f.dest s) (sub16 p q true).r

/-- `rsb [M], Ri` (41_arithmetic.md R116). -/
def execRsbZL (ri : Reg) (k : Imm5) (s : State) : Answer := aluRsb (.load ri (.direct k)) s

/-- `rsb Ri, [M]` (41_arithmetic.md R116). -/
def execRsbZS (ri : Reg) (k : Imm5) (s : State) : Answer := aluRsb (.store ri (.direct k)) s

/-- `rsb Rj, Rk, Ri` (41_arithmetic.md R116). -/
def execRsbR (ri rj rk : Reg) (s : State) : Answer := aluRsb (.regs ri rj rk) s

/-- `rsb K, Ri` (41_arithmetic.md R116). -/
def execRsbI (ri : Reg) (k : Imm5) (s : State) : Answer := aluRsb (.imm ri k) s

/-- `sbc` in any form (41_arithmetic.md R117). -/
def aluSbc (f : Form) (s : State) : Answer :=
  f.withSub s fun p q =>
    finish (s.setCarryIn (sub16 p q s.c).r (sub16 p q s.c).cout) (f.dest s) (sub16 p q s.c).r

/-- `sbc [M], Ri` (41_arithmetic.md R117). -/
def execSbcZL (ri : Reg) (k : Imm5) (s : State) : Answer := aluSbc (.load ri (.direct k)) s

/-- `sbc Ri, [M]` (41_arithmetic.md R117). -/
def execSbcZS (ri : Reg) (k : Imm5) (s : State) : Answer := aluSbc (.store ri (.direct k)) s

/-- `sbc Rj, Rk, Ri` (41_arithmetic.md R117). -/
def execSbcR (ri rj rk : Reg) (s : State) : Answer := aluSbc (.regs ri rj rk) s

/-- `sbc K, Ri` (41_arithmetic.md R117). -/
def execSbcI (ri : Reg) (k : Imm5) (s : State) : Answer := aluSbc (.imm ri k) s

/-- `dsc` in any form (41_arithmetic.md R118). -/
def aluDsc (f : Form) (s : State) : Answer :=
  f.withSub s fun p q =>
    finish (s.setCarryIn (bcdOp .dsc p q s.c).1 (bcdOp .dsc p q s.c).2) (f.dest s) (bcdOp .dsc p q s.c).1

/-- `dsc [M], Ri` (41_arithmetic.md R118). -/
def execDscZL (ri : Reg) (k : Imm5) (s : State) : Answer := aluDsc (.load ri (.direct k)) s

/-- `dsc Ri, [M]` (41_arithmetic.md R118). -/
def execDscZS (ri : Reg) (k : Imm5) (s : State) : Answer := aluDsc (.store ri (.direct k)) s

/-- `dsc Rj, Rk, Ri` (41_arithmetic.md R118). -/
def execDscR (ri rj rk : Reg) (s : State) : Answer := aluDsc (.regs ri rj rk) s

/-- `dsc K, Ri` (41_arithmetic.md R118). -/
def execDscI (ri : Reg) (k : Imm5) (s : State) : Answer := aluDsc (.imm ri k) s

end Sys2Proof.Machine
end

