-- ==== Sys2Proof/Machine/Bitwise.lean ====
section
/-! DEFINITION. The bitwise instructions (42_bitwise.md). -/

namespace Sys2Proof.Machine

/-- `and` in any form (42_bitwise.md R130). -/
def aluAnd (f : Form) (s : State) : Answer :=
  f.withSources s fun s1 s2 => finish (s.setBitwise (s1 &&& s2)) (f.dest s) (s1 &&& s2)

/-- `and [An, K], Ri` (42_bitwise.md R130). -/
def execAndML (ri : Reg) (an : AReg) (k : Imm5) (s : State) : Answer := aluAnd (.load ri (.indexed an k)) s

/-- `and Ri, [An, K]` (42_bitwise.md R130). -/
def execAndMS (ri : Reg) (an : AReg) (k : Imm5) (s : State) : Answer := aluAnd (.store ri (.indexed an k)) s

/-- `and [M], Ri` (42_bitwise.md R130). -/
def execAndZL (ri : Reg) (k : Imm5) (s : State) : Answer := aluAnd (.load ri (.direct k)) s

/-- `and Ri, [M]` (42_bitwise.md R130). -/
def execAndZS (ri : Reg) (k : Imm5) (s : State) : Answer := aluAnd (.store ri (.direct k)) s

/-- `and Rj, Rk, Ri` (42_bitwise.md R130). -/
def execAndR (ri rj rk : Reg) (s : State) : Answer := aluAnd (.regs ri rj rk) s

/-- `and K, Ri` (42_bitwise.md R130). -/
def execAndI (ri : Reg) (k : Imm5) (s : State) : Answer := aluAnd (.imm ri k) s

/-- `or` in any form (42_bitwise.md R131). -/
def aluOr (f : Form) (s : State) : Answer :=
  f.withSources s fun s1 s2 => finish (s.setBitwise (s1 ||| s2)) (f.dest s) (s1 ||| s2)

/-- `or [M], Ri` (42_bitwise.md R131). -/
def execOrZL (ri : Reg) (k : Imm5) (s : State) : Answer := aluOr (.load ri (.direct k)) s

/-- `or Ri, [M]` (42_bitwise.md R131). -/
def execOrZS (ri : Reg) (k : Imm5) (s : State) : Answer := aluOr (.store ri (.direct k)) s

/-- `or Rj, Rk, Ri` (42_bitwise.md R131). -/
def execOrR (ri rj rk : Reg) (s : State) : Answer := aluOr (.regs ri rj rk) s

/-- `or K, Ri` (42_bitwise.md R131). -/
def execOrI (ri : Reg) (k : Imm5) (s : State) : Answer := aluOr (.imm ri k) s

/-- `xor` in any form (42_bitwise.md R132). -/
def aluXor (f : Form) (s : State) : Answer :=
  f.withSources s fun s1 s2 => finish (s.setBitwise (s1 ^^^ s2)) (f.dest s) (s1 ^^^ s2)

/-- `xor [M], Ri` (42_bitwise.md R132). -/
def execXorZL (ri : Reg) (k : Imm5) (s : State) : Answer := aluXor (.load ri (.direct k)) s

/-- `xor Ri, [M]` (42_bitwise.md R132). -/
def execXorZS (ri : Reg) (k : Imm5) (s : State) : Answer := aluXor (.store ri (.direct k)) s

/-- `xor Rj, Rk, Ri` (42_bitwise.md R132). -/
def execXorR (ri rj rk : Reg) (s : State) : Answer := aluXor (.regs ri rj rk) s

/-- `xor K, Ri` (42_bitwise.md R132). -/
def execXorI (ri : Reg) (k : Imm5) (s : State) : Answer := aluXor (.imm ri k) s

end Sys2Proof.Machine
end

