-- ==== Sys2Proof/Machine/CondArith.lean ====
section
/-! DEFINITION. The conditional arithmetic instructions (46_conditional_arithmetic.md). -/

namespace Sys2Proof.Machine

/-- `adt` in any form: no flag is written, and with the condition false no destination (46_conditional_arithmetic.md R200,
R204). -/
def condAdt (f : Form) (s : State) : Answer :=
  if s.t then f.withSources s fun s1 s2 => finish s (f.dest s) (add16 s1 s2 false).r
  else finishNone s

/-- `adt [An, K], Ri` (46_conditional_arithmetic.md R200). -/
def execAdtML (ri : Reg) (an : AReg) (k : Imm5) (s : State) : Answer := condAdt (.load ri (.indexed an k)) s

/-- `adt Ri, [An, K]` (46_conditional_arithmetic.md R200). -/
def execAdtMS (ri : Reg) (an : AReg) (k : Imm5) (s : State) : Answer := condAdt (.store ri (.indexed an k)) s

/-- `adt [M], Ri` (46_conditional_arithmetic.md R200). -/
def execAdtZL (ri : Reg) (k : Imm5) (s : State) : Answer := condAdt (.load ri (.direct k)) s

/-- `adt Ri, [M]` (46_conditional_arithmetic.md R200). -/
def execAdtZS (ri : Reg) (k : Imm5) (s : State) : Answer := condAdt (.store ri (.direct k)) s

/-- `adt Rj, Rk, Ri` (46_conditional_arithmetic.md R200). -/
def execAdtR (ri rj rk : Reg) (s : State) : Answer := condAdt (.regs ri rj rk) s

/-- `adt K, Ri` (46_conditional_arithmetic.md R200). -/
def execAdtI (ri : Reg) (k : Imm5) (s : State) : Answer := condAdt (.imm ri k) s

/-- `adf` in any form: no flag is written, and with the condition false no destination (46_conditional_arithmetic.md R201,
R204). -/
def condAdf (f : Form) (s : State) : Answer :=
  if s.t then finishNone s
  else f.withSources s fun s1 s2 => finish s (f.dest s) (add16 s1 s2 false).r

/-- `adf [M], Ri` (46_conditional_arithmetic.md R201). -/
def execAdfZL (ri : Reg) (k : Imm5) (s : State) : Answer := condAdf (.load ri (.direct k)) s

/-- `adf Ri, [M]` (46_conditional_arithmetic.md R201). -/
def execAdfZS (ri : Reg) (k : Imm5) (s : State) : Answer := condAdf (.store ri (.direct k)) s

/-- `adf Rj, Rk, Ri` (46_conditional_arithmetic.md R201). -/
def execAdfR (ri rj rk : Reg) (s : State) : Answer := condAdf (.regs ri rj rk) s

/-- `adf K, Ri` (46_conditional_arithmetic.md R201). -/
def execAdfI (ri : Reg) (k : Imm5) (s : State) : Answer := condAdf (.imm ri k) s

/-- `sbt` in any form: no flag is written, and with the condition false no destination (46_conditional_arithmetic.md R202,
R204). -/
def condSbt (f : Form) (s : State) : Answer :=
  if s.t then f.withSub s fun p q => finish s (f.dest s) (sub16 p q true).r
  else finishNone s

/-- `sbt [M], Ri` (46_conditional_arithmetic.md R202). -/
def execSbtZL (ri : Reg) (k : Imm5) (s : State) : Answer := condSbt (.load ri (.direct k)) s

/-- `sbt Ri, [M]` (46_conditional_arithmetic.md R202). -/
def execSbtZS (ri : Reg) (k : Imm5) (s : State) : Answer := condSbt (.store ri (.direct k)) s

/-- `sbt Rj, Rk, Ri` (46_conditional_arithmetic.md R202). -/
def execSbtR (ri rj rk : Reg) (s : State) : Answer := condSbt (.regs ri rj rk) s

/-- `sbt K, Ri` (46_conditional_arithmetic.md R202). -/
def execSbtI (ri : Reg) (k : Imm5) (s : State) : Answer := condSbt (.imm ri k) s

/-- `sbf` in any form: no flag is written, and with the condition false no destination (46_conditional_arithmetic.md R203,
R204). -/
def condSbf (f : Form) (s : State) : Answer :=
  if s.t then finishNone s
  else f.withSub s fun p q => finish s (f.dest s) (sub16 p q true).r

/-- `sbf [M], Ri` (46_conditional_arithmetic.md R203). -/
def execSbfZL (ri : Reg) (k : Imm5) (s : State) : Answer := condSbf (.load ri (.direct k)) s

/-- `sbf Ri, [M]` (46_conditional_arithmetic.md R203). -/
def execSbfZS (ri : Reg) (k : Imm5) (s : State) : Answer := condSbf (.store ri (.direct k)) s

/-- `sbf Rj, Rk, Ri` (46_conditional_arithmetic.md R203). -/
def execSbfR (ri rj rk : Reg) (s : State) : Answer := condSbf (.regs ri rj rk) s

/-- `sbf K, Ri` (46_conditional_arithmetic.md R203). -/
def execSbfI (ri : Reg) (k : Imm5) (s : State) : Answer := condSbf (.imm ri k) s

end Sys2Proof.Machine
end

