-- ==== Sys2Proof/Machine/Move.lean ====
section
/-! DEFINITION. Moves, conditional moves and selects, and the load from program memory, which takes a second
instruction cycle (45_move.md, 70_reset_and_hazards.md R266). -/

namespace Sys2Proof.Machine

/-- `mov` in any form: `S1` is not used, and a store form reads no memory (45_move.md R180). -/
def moveMov (f : Form) (s : State) : Answer :=
  withVal (f.src2 s) fun v => finish s (f.dest s) v

/-- `mov [An, K], Ri` (45_move.md R180). -/
def execMovML (ri : Reg) (an : AReg) (k : Imm5) (s : State) : Answer := moveMov (.load ri (.indexed an k)) s

/-- `mov Ri, [An, K]` (45_move.md R180). -/
def execMovMS (ri : Reg) (an : AReg) (k : Imm5) (s : State) : Answer := moveMov (.store ri (.indexed an k)) s

/-- `mov [M], Ri` (45_move.md R180). -/
def execMovZL (ri : Reg) (k : Imm5) (s : State) : Answer := moveMov (.load ri (.direct k)) s

/-- `mov Ri, [M]` (45_move.md R180). -/
def execMovZS (ri : Reg) (k : Imm5) (s : State) : Answer := moveMov (.store ri (.direct k)) s

/-- `mov Rk, Ri` (45_move.md R180). -/
def execMovR (ri rk : Reg) (s : State) : Answer := moveMov (.regs ri rk rk) s

/-- `mov K, Ri` (45_move.md R180). -/
def execMovI (ri : Reg) (k : Imm5) (s : State) : Answer := moveMov (.imm ri k) s

/-- `set` in any form (45_move.md R182, R185, R186; log 20). -/
def moveSet (f : Form) (s : State) : Answer :=
  withVal (if s.t then f.src2 s else .ok 0) fun v => finish s (f.dest s) v

/-- `set [M], Ri` (45_move.md R182). -/
def execSetZL (ri : Reg) (k : Imm5) (s : State) : Answer := moveSet (.load ri (.direct k)) s

/-- `set Ri, [M]` (45_move.md R182). -/
def execSetZS (ri : Reg) (k : Imm5) (s : State) : Answer := moveSet (.store ri (.direct k)) s

/-- `set Rk, Ri` (45_move.md R182). -/
def execSetR (ri rk : Reg) (s : State) : Answer := moveSet (.regs ri rk rk) s

/-- `set K, Ri` (45_move.md R182). -/
def execSetI (ri : Reg) (k : Imm5) (s : State) : Answer := moveSet (.imm ri k) s

/-- `sef` in any form (45_move.md R183, R185, R186; log 20). -/
def moveSef (f : Form) (s : State) : Answer :=
  withVal (if s.t then .ok 0 else f.src2 s) fun v => finish s (f.dest s) v

/-- `sef [M], Ri` (45_move.md R183). -/
def execSefZL (ri : Reg) (k : Imm5) (s : State) : Answer := moveSef (.load ri (.direct k)) s

/-- `sef Ri, [M]` (45_move.md R183). -/
def execSefZS (ri : Reg) (k : Imm5) (s : State) : Answer := moveSef (.store ri (.direct k)) s

/-- `sef Rk, Ri` (45_move.md R183). -/
def execSefR (ri rk : Reg) (s : State) : Answer := moveSef (.regs ri rk rk) s

/-- `sef K, Ri` (45_move.md R183). -/
def execSefI (ri : Reg) (k : Imm5) (s : State) : Answer := moveSef (.imm ri k) s

/-- `sel` in any form (45_move.md R184, R185, R186; log 20). -/
def moveSel (f : Form) (s : State) : Answer :=
  withVal (if s.t then f.src2 s else f.src1 s) fun v => finish s (f.dest s) v

/-- `sel [M], Ri` (45_move.md R184). -/
def execSelZL (ri : Reg) (k : Imm5) (s : State) : Answer := moveSel (.load ri (.direct k)) s

/-- `sel Ri, [M]` (45_move.md R184). -/
def execSelZS (ri : Reg) (k : Imm5) (s : State) : Answer := moveSel (.store ri (.direct k)) s

/-- `sel Rj, Rk, Ri` (45_move.md R184). -/
def execSelR (ri rj rk : Reg) (s : State) : Answer := moveSel (.regs ri rj rk) s

/-- `sel K, Ri` (45_move.md R184). -/
def execSelI (ri : Reg) (k : Imm5) (s : State) : Answer := moveSel (.imm ri k) s

/-- `lp [Rk], Ri` (45_move.md R181). -/
def execLp (ri rk : Reg) (s : State) : Answer := 
  withVal (s.readProg (s.readReg rk)) fun v => finish { s with cycles := s.cycles + 1 } (.reg ri) v

end Sys2Proof.Machine
end

