-- ==== Sys2Proof/Machine/Branch.lean ====
section
/-! DEFINITION. Move and link, and the eight branch names: I-type instructions with destination PC, executed by the rule of
the underlying instruction (47_branch_link.md R210). -/

namespace Sys2Proof.Machine

/-- `mvl` in any form: the link register first receives the address of the following instruction, then the move runs, so
that a source R6 is read after the link write (47_branch_link.md R218; log 23). -/
def moveLink (f : Form) (s : State) : Answer :=
  let linked := { s with r6 := s.nextPc }
  withVal (f.src2 linked) fun v => finish linked (f.dest linked) v

/-- `mvl [M], Ri` (47_branch_link.md R218). -/
def execMvlZL (ri : Reg) (k : Imm5) (s : State) : Answer := moveLink (.load ri (.direct k)) s

/-- `mvl Ri, [M]` (47_branch_link.md R218). -/
def execMvlZS (ri : Reg) (k : Imm5) (s : State) : Answer := moveLink (.store ri (.direct k)) s

/-- `mvl Rk, Ri` (47_branch_link.md R218). -/
def execMvlR (ri rk : Reg) (s : State) : Answer := moveLink (.regs ri rk rk) s

/-- `mvl K, Ri` (47_branch_link.md R218). -/
def execMvlI (ri : Reg) (k : Imm5) (s : State) : Answer := moveLink (.imm ri k) s

/-- `j Label` = `mov K, PC` (47_branch_link.md R211). -/
def execJ (k : Imm5) (s : State) : Answer := moveMov (.imm .pc k) s

/-- `b+ Label` = `add K, PC` (47_branch_link.md R212). -/
def execBPlus (k : Imm5) (s : State) : Answer := aluAdd (.imm .pc k) s

/-- `b- Label` = `sub K, PC` (47_branch_link.md R213). -/
def execBMinus (k : Imm5) (s : State) : Answer := aluSub (.imm .pc k) s

/-- `bt+ Label` = `adt K, PC` (47_branch_link.md R214). -/
def execBtPlus (k : Imm5) (s : State) : Answer := condAdt (.imm .pc k) s

/-- `bf+ Label` = `adf K, PC` (47_branch_link.md R215). -/
def execBfPlus (k : Imm5) (s : State) : Answer := condAdf (.imm .pc k) s

/-- `bt- Label` = `sbt K, PC` (47_branch_link.md R216). -/
def execBtMinus (k : Imm5) (s : State) : Answer := condSbt (.imm .pc k) s

/-- `bf- Label` = `sbf K, PC` (47_branch_link.md R217). -/
def execBfMinus (k : Imm5) (s : State) : Answer := condSbf (.imm .pc k) s

/-- `jl Label` = `mvl K, PC` (47_branch_link.md R219). -/
def execJl (k : Imm5) (s : State) : Answer := moveLink (.imm .pc k) s

end Sys2Proof.Machine
end

