-- ==== Sys2Proof/Machine/Compare.lean ====
section
/-! DEFINITION. The compare instructions (44_compare.md). Outside R-type the condition is always `eq` (R164, log 32). -/

namespace Sys2Proof.Machine

/-- `cmp` of `p` with `q`: nothing but the flags is written (44_compare.md R162, R165). -/
def compare (cc : CC) (p q : Word) (s : State) : Answer :=
  finishNone (s.setCompare cc (sub16 p q true) ((sub16 p q true).r == 0))

/-- `cmp.eq [An, K], Ri` (44_compare.md R162). -/
def execCmpML (ri : Reg) (an : AReg) (k : Imm5) (s : State) : Answer := 
  (Form.load ri (.indexed an k)).withSub s fun p q => compare .eq p q s

/-- `cmp.eq [M], Ri` (44_compare.md R162). -/
def execCmpZL (ri : Reg) (k : Imm5) (s : State) : Answer := 
  (Form.load ri (.direct k)).withSub s fun p q => compare .eq p q s

/-- `cmp.cc Rj, Rk` (44_compare.md R162). -/
def execCmpR (cc : CC) (rj rk : Reg) (s : State) : Answer := 
  compare cc (s.readReg rj) (s.readReg rk) s

/-- `cmp.eq K, Ri` (44_compare.md R162). -/
def execCmpI (ri : Reg) (k : Imm5) (s : State) : Answer := 
  (Form.imm ri k).withSub s fun p q => compare .eq p q s

/-- `cpc` of `p` with `q`: the subtraction takes the borrow and the zero indication of the previous instruction
(44_compare.md R163, R165). -/
def compareCarry (cc : CC) (p q : Word) (s : State) : Answer :=
  finishNone (s.setCompare cc (sub16 p q s.c) (s.z && (sub16 p q s.c).r == 0))

/-- `cpc.eq [M], Ri` (44_compare.md R163). -/
def execCpcZL (ri : Reg) (k : Imm5) (s : State) : Answer := 
  (Form.load ri (.direct k)).withSub s fun p q => compareCarry .eq p q s

/-- `cpc.cc Rj, Rk` (44_compare.md R163). -/
def execCpcR (cc : CC) (rj rk : Reg) (s : State) : Answer := 
  compareCarry cc (s.readReg rj) (s.readReg rk) s

/-- `cpc.eq K, Ri` (44_compare.md R163). -/
def execCpcI (ri : Reg) (k : Imm5) (s : State) : Answer := 
  (Form.imm ri k).withSub s fun p q => compareCarry .eq p q s

end Sys2Proof.Machine
end

