-- ==== Sys2Proof/Machine/Shift.lean ====
section
/-! DEFINITION. The shift and rotate instructions, R-type only (43_shift_rotate.md). -/

namespace Sys2Proof.Machine

/-- The end of every shift and rotate: the flags of 43_shift_rotate.md R149, then the result to `Ri`. -/
def finishShift (s : State) (ri : Reg) (d : Shifted) : Answer :=
  finish (s.setShift d.out) (.reg ri) d.r

/-- `sr1 Rj, Ri` (43_shift_rotate.md R141). -/
def execSr1R (ri rj : Reg) (s : State) : Answer := 
  finishShift s ri (funnelRight 1 (s.readReg rj) 0)

/-- `sr4 Rj, Ri` (43_shift_rotate.md R142). -/
def execSr4R (ri rj : Reg) (s : State) : Answer := 
  finishShift s ri (funnelRight 4 (s.readReg rj) 0)

/-- `sl1 Rj, Ri` (43_shift_rotate.md R143). -/
def execSl1R (ri rj : Reg) (s : State) : Answer := 
  finishShift s ri (funnelLeft 1 (s.readReg rj) 0)

/-- `sl4 Rj, Ri` (43_shift_rotate.md R144). -/
def execSl4R (ri rj : Reg) (s : State) : Answer := 
  finishShift s ri (funnelLeft 4 (s.readReg rj) 0)

/-- `rr1 Rj, Rk, Ri` (43_shift_rotate.md R145). -/
def execRr1R (ri rj rk : Reg) (s : State) : Answer := 
  finishShift s ri (funnelRight 1 (s.readReg rj) (s.readReg rk))

/-- `rr4 Rj, Rk, Ri` (43_shift_rotate.md R146). -/
def execRr4R (ri rj rk : Reg) (s : State) : Answer := 
  finishShift s ri (funnelRight 4 (s.readReg rj) (s.readReg rk))

/-- `rl1 Rj, Rk, Ri` (43_shift_rotate.md R147). -/
def execRl1R (ri rj rk : Reg) (s : State) : Answer := 
  finishShift s ri (funnelLeft 1 (s.readReg rj) (s.readReg rk))

/-- `rl4 Rj, Rk, Ri` (43_shift_rotate.md R148). -/
def execRl4R (ri rj rk : Reg) (s : State) : Answer := 
  finishShift s ri (funnelLeft 4 (s.readReg rj) (s.readReg rk))

end Sys2Proof.Machine
end

