-- ==== Sys2Proof/Machine/Special.lean ====
section
/-! DEFINITION. No-operation, prefix and halt (48_nop_hlt.md, 40_cycle_and_prefix.md R92; log 21). -/

namespace Sys2Proof.Machine

/-- `nop` (48_nop_hlt.md R230). -/
def execNop (s : State) : Answer := .next s.retire

/-- `pfx K` (40_cycle_and_prefix.md R92). -/
def execPfx (k : Imm11) (s : State) : Answer := .next { s.retire with pfr := k }

/-- `hlt` (48_nop_hlt.md R231). -/
def execHlt (s : State) : Answer := .next { s.retire with halted := true }

end Sys2Proof.Machine
end

