-- ==== Sys2Proof/Machine/Dispatch.lean ====
section
/-! DEFINITION. The dispatch: one arm per constructor of `Instr`, each a direct call of that instruction's meaning. -/

namespace Sys2Proof.Machine

def exec (i : Instr) (s : State) : Host.Outcome State Fault Refusal :=
  match i with
  | .nop => Sys2Proof.Machine.execNop s
  | .pfx k => Sys2Proof.Machine.execPfx k s
  | .hlt => Sys2Proof.Machine.execHlt s
  | .lp ri rk => Sys2Proof.Machine.execLp ri rk s
  | .cmpML ri an k => Sys2Proof.Machine.execCmpML ri an k s
  | .movML ri an k => Sys2Proof.Machine.execMovML ri an k s
  | .movMS ri an k => Sys2Proof.Machine.execMovMS ri an k s
  | .addML ri an k => Sys2Proof.Machine.execAddML ri an k s
  | .addMS ri an k => Sys2Proof.Machine.execAddMS ri an k s
  | .subML ri an k => Sys2Proof.Machine.execSubML ri an k s
  | .subMS ri an k => Sys2Proof.Machine.execSubMS ri an k s
  | .andML ri an k => Sys2Proof.Machine.execAndML ri an k s
  | .andMS ri an k => Sys2Proof.Machine.execAndMS ri an k s
  | .adtML ri an k => Sys2Proof.Machine.execAdtML ri an k s
  | .adtMS ri an k => Sys2Proof.Machine.execAdtMS ri an k s
  | .cmpZL ri k => Sys2Proof.Machine.execCmpZL ri k s
  | .cpcZL ri k => Sys2Proof.Machine.execCpcZL ri k s
  | .movZL ri k => Sys2Proof.Machine.execMovZL ri k s
  | .movZS ri k => Sys2Proof.Machine.execMovZS ri k s
  | .setZL ri k => Sys2Proof.Machine.execSetZL ri k s
  | .setZS ri k => Sys2Proof.Machine.execSetZS ri k s
  | .sefZL ri k => Sys2Proof.Machine.execSefZL ri k s
  | .sefZS ri k => Sys2Proof.Machine.execSefZS ri k s
  | .selZL ri k => Sys2Proof.Machine.execSelZL ri k s
  | .selZS ri k => Sys2Proof.Machine.execSelZS ri k s
  | .addZL ri k => Sys2Proof.Machine.execAddZL ri k s
  | .addZS ri k => Sys2Proof.Machine.execAddZS ri k s
  | .dadZL ri k => Sys2Proof.Machine.execDadZL ri k s
  | .dadZS ri k => Sys2Proof.Machine.execDadZS ri k s
  | .adcZL ri k => Sys2Proof.Machine.execAdcZL ri k s
  | .adcZS ri k => Sys2Proof.Machine.execAdcZS ri k s
  | .dacZL ri k => Sys2Proof.Machine.execDacZL ri k s
  | .dacZS ri k => Sys2Proof.Machine.execDacZS ri k s
  | .subZL ri k => Sys2Proof.Machine.execSubZL ri k s
  | .subZS ri k => Sys2Proof.Machine.execSubZS ri k s
  | .rsbZL ri k => Sys2Proof.Machine.execRsbZL ri k s
  | .rsbZS ri k => Sys2Proof.Machine.execRsbZS ri k s
  | .sbcZL ri k => Sys2Proof.Machine.execSbcZL ri k s
  | .sbcZS ri k => Sys2Proof.Machine.execSbcZS ri k s
  | .dscZL ri k => Sys2Proof.Machine.execDscZL ri k s
  | .dscZS ri k => Sys2Proof.Machine.execDscZS ri k s
  | .andZL ri k => Sys2Proof.Machine.execAndZL ri k s
  | .andZS ri k => Sys2Proof.Machine.execAndZS ri k s
  | .orZL ri k => Sys2Proof.Machine.execOrZL ri k s
  | .orZS ri k => Sys2Proof.Machine.execOrZS ri k s
  | .xorZL ri k => Sys2Proof.Machine.execXorZL ri k s
  | .xorZS ri k => Sys2Proof.Machine.execXorZS ri k s
  | .mvlZL ri k => Sys2Proof.Machine.execMvlZL ri k s
  | .mvlZS ri k => Sys2Proof.Machine.execMvlZS ri k s
  | .adtZL ri k => Sys2Proof.Machine.execAdtZL ri k s
  | .adtZS ri k => Sys2Proof.Machine.execAdtZS ri k s
  | .adfZL ri k => Sys2Proof.Machine.execAdfZL ri k s
  | .adfZS ri k => Sys2Proof.Machine.execAdfZS ri k s
  | .sbtZL ri k => Sys2Proof.Machine.execSbtZL ri k s
  | .sbtZS ri k => Sys2Proof.Machine.execSbtZS ri k s
  | .sbfZL ri k => Sys2Proof.Machine.execSbfZL ri k s
  | .sbfZS ri k => Sys2Proof.Machine.execSbfZS ri k s
  | .sr1R ri rj => Sys2Proof.Machine.execSr1R ri rj s
  | .rr1R ri rj rk => Sys2Proof.Machine.execRr1R ri rj rk s
  | .sr4R ri rj => Sys2Proof.Machine.execSr4R ri rj s
  | .rr4R ri rj rk => Sys2Proof.Machine.execRr4R ri rj rk s
  | .sl1R ri rj => Sys2Proof.Machine.execSl1R ri rj s
  | .rl1R ri rj rk => Sys2Proof.Machine.execRl1R ri rj rk s
  | .sl4R ri rj => Sys2Proof.Machine.execSl4R ri rj s
  | .rl4R ri rj rk => Sys2Proof.Machine.execRl4R ri rj rk s
  | .cmpR cc rj rk => Sys2Proof.Machine.execCmpR cc rj rk s
  | .cpcR cc rj rk => Sys2Proof.Machine.execCpcR cc rj rk s
  | .movR ri rk => Sys2Proof.Machine.execMovR ri rk s
  | .setR ri rk => Sys2Proof.Machine.execSetR ri rk s
  | .sefR ri rk => Sys2Proof.Machine.execSefR ri rk s
  | .selR ri rj rk => Sys2Proof.Machine.execSelR ri rj rk s
  | .addR ri rj rk => Sys2Proof.Machine.execAddR ri rj rk s
  | .dadR ri rj rk => Sys2Proof.Machine.execDadR ri rj rk s
  | .adcR ri rj rk => Sys2Proof.Machine.execAdcR ri rj rk s
  | .dacR ri rj rk => Sys2Proof.Machine.execDacR ri rj rk s
  | .subR ri rj rk => Sys2Proof.Machine.execSubR ri rj rk s
  | .rsbR ri rj rk => Sys2Proof.Machine.execRsbR ri rj rk s
  | .sbcR ri rj rk => Sys2Proof.Machine.execSbcR ri rj rk s
  | .dscR ri rj rk => Sys2Proof.Machine.execDscR ri rj rk s
  | .andR ri rj rk => Sys2Proof.Machine.execAndR ri rj rk s
  | .orR ri rj rk => Sys2Proof.Machine.execOrR ri rj rk s
  | .xorR ri rj rk => Sys2Proof.Machine.execXorR ri rj rk s
  | .mvlR ri rk => Sys2Proof.Machine.execMvlR ri rk s
  | .adtR ri rj rk => Sys2Proof.Machine.execAdtR ri rj rk s
  | .adfR ri rj rk => Sys2Proof.Machine.execAdfR ri rj rk s
  | .sbtR ri rj rk => Sys2Proof.Machine.execSbtR ri rj rk s
  | .sbfR ri rj rk => Sys2Proof.Machine.execSbfR ri rj rk s
  | .cmpI ri k => Sys2Proof.Machine.execCmpI ri k s
  | .cpcI ri k => Sys2Proof.Machine.execCpcI ri k s
  | .movI ri k => Sys2Proof.Machine.execMovI ri k s
  | .j k => Sys2Proof.Machine.execJ k s
  | .setI ri k => Sys2Proof.Machine.execSetI ri k s
  | .sefI ri k => Sys2Proof.Machine.execSefI ri k s
  | .selI ri k => Sys2Proof.Machine.execSelI ri k s
  | .addI ri k => Sys2Proof.Machine.execAddI ri k s
  | .bPlus k => Sys2Proof.Machine.execBPlus k s
  | .dadI ri k => Sys2Proof.Machine.execDadI ri k s
  | .adcI ri k => Sys2Proof.Machine.execAdcI ri k s
  | .dacI ri k => Sys2Proof.Machine.execDacI ri k s
  | .subI ri k => Sys2Proof.Machine.execSubI ri k s
  | .bMinus k => Sys2Proof.Machine.execBMinus k s
  | .rsbI ri k => Sys2Proof.Machine.execRsbI ri k s
  | .sbcI ri k => Sys2Proof.Machine.execSbcI ri k s
  | .dscI ri k => Sys2Proof.Machine.execDscI ri k s
  | .andI ri k => Sys2Proof.Machine.execAndI ri k s
  | .orI ri k => Sys2Proof.Machine.execOrI ri k s
  | .xorI ri k => Sys2Proof.Machine.execXorI ri k s
  | .mvlI ri k => Sys2Proof.Machine.execMvlI ri k s
  | .jl k => Sys2Proof.Machine.execJl k s
  | .adtI ri k => Sys2Proof.Machine.execAdtI ri k s
  | .btPlus k => Sys2Proof.Machine.execBtPlus k s
  | .adfI ri k => Sys2Proof.Machine.execAdfI ri k s
  | .bfPlus k => Sys2Proof.Machine.execBfPlus k s
  | .sbtI ri k => Sys2Proof.Machine.execSbtI ri k s
  | .btMinus k => Sys2Proof.Machine.execBtMinus k s
  | .sbfI ri k => Sys2Proof.Machine.execSbfI ri k s
  | .bfMinus k => Sys2Proof.Machine.execBfMinus k s

end Sys2Proof.Machine
end

