-- ==== Sys2Proof/Machine/Step.lean ====
section
/-! DEFINITION. One step of the machine (40_cycle_and_prefix.md R90) and the place of the next instruction. -/

namespace Sys2Proof.Machine

/-- One step: fetch, decode, execute. While the machine is halted the clock is stopped and nothing changes
(48_nop_hlt.md R232; log 21). -/
def step (s : State) : Host.Outcome State Fault Refusal :=
  if s.halted then .next s
  else withVal s.fetch fun i => exec i s

/-- `s` with the instruction word stored where `step` fetches its next instruction and the clock running (log 31). -/
def State.withFetchWord (s : State) (nbits w : Nat) : State := s.placeFetchWord nbits w

end Sys2Proof.Machine
end

