-- ==== Sys2Proof/Machine/Events.lean ====
section
/-! DEFINITION. What the host outside the machine can do to it, beside `step` (48_nop_hlt.md R232, 92_eei_decisions.md D13,
D20; log 22). -/

namespace Sys2Proof.Machine

/-- An act of the host: the key of `hlt`, or a change of a memory word or a register. -/
inductive HostEvent where
  /-- The key that ends `hlt`; it carries no data (48_nop_hlt.md R232). -/
  | keyPressed
  | pokeProg (a v : Word)
  | pokeData (a v : Word)
  | pokeReg (r : Reg) (v : Word)
  deriving DecidableEq, Repr

/-- The key ends the halt and changes nothing else; pressed while the machine runs it is ignored and not remembered
(48_nop_hlt.md R232). -/
def State.pressKey (s : State) : State :=
  if s.halted then { s with halted := false } else s

/-- One act of the host. It changes memories and registers only while the machine is halted (92_eei_decisions.md D13); while
the machine runs every act is without effect. -/
def hostAct (e : HostEvent) (s : State) : State :=
  match e with
  | .keyPressed => s.pressKey
  | .pokeProg a v => if s.halted then s.pokeProg a v else s
  | .pokeData a v => if s.halted then s.pokeData a v else s
  | .pokeReg r v => if s.halted then s.writeReg r v else s

end Sys2Proof.Machine
end

