-- ==== Sys2Proof/Safety.lean ====
section
/-! DEFINITION. The words the claims are stated in: what an instruction names as its destination, what it may leave
unchanged, what it means to complete, and the invariant of a safe run. -/

namespace Sys2Proof

/-! ## What an instruction names (30_encoding.md R72, 40_cycle_and_prefix.md R100) -/

/-- The register in the destination field: none for a store form, a compare, `nop`, `pfx` and `hlt`. -/
def Instr.destReg : Instr → Option Reg
  | .j _ | .bPlus _ | .bMinus _ | .jl _ | .btPlus _ | .bfPlus _ | .btMinus _ | .bfMinus _ => some .pc
  | .lp ri _ | .movML ri _ _ | .addML ri _ _ | .subML ri _ _ | .andML ri _ _ | .adtML ri _ _ | .movZL ri _
  | .setZL ri _ | .sefZL ri _ | .selZL ri _ | .addZL ri _ | .dadZL ri _ | .adcZL ri _ | .dacZL ri _ | .subZL ri _
  | .rsbZL ri _ | .sbcZL ri _ | .dscZL ri _ | .andZL ri _ | .orZL ri _ | .xorZL ri _ | .mvlZL ri _ | .adtZL ri _
  | .adfZL ri _ | .sbtZL ri _ | .sbfZL ri _ | .sr1R ri _ | .rr1R ri _ _ | .sr4R ri _ | .rr4R ri _ _ | .sl1R ri _
  | .rl1R ri _ _ | .sl4R ri _ | .rl4R ri _ _ | .movR ri _ | .setR ri _ | .sefR ri _ | .selR ri _ _ | .addR ri _ _
  | .dadR ri _ _ | .adcR ri _ _ | .dacR ri _ _ | .subR ri _ _ | .rsbR ri _ _ | .sbcR ri _ _ | .dscR ri _ _
  | .andR ri _ _ | .orR ri _ _ | .xorR ri _ _ | .mvlR ri _ | .adtR ri _ _ | .adfR ri _ _ | .sbtR ri _ _
  | .sbfR ri _ _ | .movI ri _ | .setI ri _ | .sefI ri _ | .selI ri _ | .addI ri _ | .dadI ri _ | .adcI ri _
  | .dacI ri _ | .subI ri _ | .rsbI ri _ | .sbcI ri _ | .dscI ri _ | .andI ri _ | .orI ri _ | .xorI ri _ | .mvlI ri _
  | .adtI ri _ | .adfI ri _ | .sbtI ri _ | .sbfI ri _ => some ri
  | _ => none

/-- The data address a store form names: none for every other form (30_encoding.md R68). -/
def Instr.storeAddr : Instr → Option Machine.Addr
  | .movMS _ an k | .addMS _ an k | .subMS _ an k | .andMS _ an k | .adtMS _ an k => some (.indexed an k)
  | .movZS _ k | .setZS _ k | .sefZS _ k | .selZS _ k | .addZS _ k | .dadZS _ k | .adcZS _ k | .dacZS _ k
  | .subZS _ k | .rsbZS _ k | .sbcZS _ k | .dscZS _ k | .andZS _ k | .orZS _ k | .xorZS _ k | .mvlZS _ k | .adtZS _ k
  | .adfZS _ k | .sbtZS _ k | .sbfZS _ k => some (.direct k)
  | _ => none

/-- The data address an instruction reads where T is `t`: of a load form and of a store form that needs the old word, of a
conditional one where its condition selects it (20_memory.md R49, 45_move.md R185, 46_conditional_arithmetic.md R204;
log 28). -/
def Instr.dataRead (i : Instr) (t : Bool) : Option Machine.Addr :=
  match i with
  | .cmpML _ an k | .movML _ an k | .addML _ an k | .addMS _ an k | .subML _ an k | .subMS _ an k | .andML _ an k
  | .andMS _ an k => some (.indexed an k)
  | .adtML _ an k | .adtMS _ an k => if t then some (.indexed an k) else none
  | .cmpZL _ k | .cpcZL _ k | .movZL _ k | .addZL _ k | .addZS _ k | .dadZL _ k | .dadZS _ k | .adcZL _ k | .adcZS _ k
  | .dacZL _ k | .dacZS _ k | .subZL _ k | .subZS _ k | .rsbZL _ k | .rsbZS _ k | .sbcZL _ k | .sbcZS _ k | .dscZL _ k
  | .dscZS _ k | .andZL _ k | .andZS _ k | .orZL _ k | .orZS _ k | .xorZL _ k | .xorZS _ k | .mvlZL _ k =>
    some (.direct k)
  | .setZL _ k | .selZL _ k | .adtZL _ k | .adtZS _ k | .sbtZL _ k | .sbtZS _ k => if t then some (.direct k) else none
  | .sefZL _ k | .selZS _ k | .adfZL _ k | .adfZS _ k | .sbfZL _ k | .sbfZS _ k => if t then none else some (.direct k)
  | _ => none

/-- The data address an instruction writes where T is `t`: of a store form, unless it is a conditional one whose condition
is false (20_memory.md R49, 46_conditional_arithmetic.md R204). -/
def Instr.dataWrite (i : Instr) (t : Bool) : Option Machine.Addr :=
  match i with
  | .adtMS _ _ _ | .adtZS _ _ | .sbtZS _ _ => if t then i.storeAddr else none
  | .adfZS _ _ | .sbfZS _ _ => if t then none else i.storeAddr
  | _ => i.storeAddr

/-- `mvl` and its form `jl`, which write the link register R6 (10_state.md R14). -/
def Instr.writesLink : Instr → Bool
  | .mvlZL _ _ | .mvlZS _ _ | .mvlR _ _ | .mvlI _ _ | .jl _ => true
  | _ => false

/-- The instructions that leave T, C and Z unchanged (10_state.md section 5, 70_reset_and_hazards.md R265). -/
def Instr.keepsFlags : Instr → Bool
  | .nop | .pfx _ | .hlt | .lp _ _ | .movML _ _ _ | .movMS _ _ _ | .adtML _ _ _ | .adtMS _ _ _ | .movZL _ _
  | .movZS _ _ | .setZL _ _ | .setZS _ _ | .sefZL _ _ | .sefZS _ _ | .selZL _ _ | .selZS _ _ | .mvlZL _ _
  | .mvlZS _ _ | .adtZL _ _ | .adtZS _ _ | .adfZL _ _ | .adfZS _ _ | .sbtZL _ _ | .sbtZS _ _ | .sbfZL _ _
  | .sbfZS _ _ | .movR _ _ | .setR _ _ | .sefR _ _ | .selR _ _ _ | .mvlR _ _ | .adtR _ _ _ | .adfR _ _ _
  | .sbtR _ _ _ | .sbfR _ _ _ | .movI _ _ | .j _ | .setI _ _ | .sefI _ _ | .selI _ _ | .mvlI _ _ | .jl _ | .adtI _ _
  | .btPlus _ | .adfI _ _ | .bfPlus _ | .sbtI _ _ | .btMinus _ | .sbfI _ _ | .bfMinus _ => true
  | _ => false

/-- The carry-in instructions, the only ones that read C and Z (10_state.md R22, R23; 41_arithmetic.md R123). -/
def Instr.readsCarry : Instr → Bool
  | .cpcZL _ _ | .adcZL _ _ | .adcZS _ _ | .dacZL _ _ | .dacZS _ _ | .sbcZL _ _ | .sbcZS _ _ | .dscZL _ _
  | .dscZS _ _ | .cpcR _ _ _ | .adcR _ _ _ | .dacR _ _ _ | .sbcR _ _ _ | .dscR _ _ _ | .cpcI _ _ | .adcI _ _
  | .dacI _ _ | .sbcI _ _ | .dscI _ _ => true
  | _ => false

/-- The conditional instructions, the only ones that read T (10_state.md R21). -/
def Instr.readsT : Instr → Bool
  | .adtML _ _ _ | .adtMS _ _ _ | .setZL _ _ | .setZS _ _ | .sefZL _ _ | .sefZS _ _ | .selZL _ _ | .selZS _ _
  | .adtZL _ _ | .adtZS _ _ | .adfZL _ _ | .adfZS _ _ | .sbtZL _ _ | .sbtZS _ _ | .sbfZL _ _ | .sbfZS _ _ | .setR _ _
  | .sefR _ _ | .selR _ _ _ | .adtR _ _ _ | .adfR _ _ _ | .sbtR _ _ _ | .sbfR _ _ _ | .setI _ _ | .sefI _ _
  | .selI _ _ | .adtI _ _ | .btPlus _ | .adfI _ _ | .bfPlus _ | .sbtI _ _ | .btMinus _ | .sbfI _ _ | .bfMinus _ => true
  | _ => false

/-- The shifts and rotates, after which Z is open (43_shift_rotate.md R149). -/
def Instr.isShift : Instr → Bool
  | .sr1R _ _ | .rr1R _ _ _ | .sr4R _ _ | .rr4R _ _ _ | .sl1R _ _ | .rl1R _ _ _ | .sl4R _ _ | .rl4R _ _ _ => true
  | _ => false

/-- The bits of its word that an instruction does not ignore (30_encoding.md R65, R75). -/
def Instr.usedBits : Instr → Word
  | .hlt => 0xF8E0
  | .lp _ _ => 0xFFE7
  | .sr1R _ _ | .sr4R _ _ | .sl1R _ _ | .sl4R _ _ => 0xFFF8
  | .movR _ _ | .setR _ _ | .sefR _ _ | .mvlR _ _ => 0xFFC7
  | _ => 0xFFFF

/-- The instructions with a 5-bit immediate field, the only ones that read PFR: every other one ignores a prefix
(40_cycle_and_prefix.md R94, R95). -/
def Instr.readsPrefix : Instr → Bool
  | .nop | .pfx _ | .hlt | .lp _ _ | .sr1R _ _ | .rr1R _ _ _ | .sr4R _ _ | .rr4R _ _ _ | .sl1R _ _ | .rl1R _ _ _
  | .sl4R _ _ | .rl4R _ _ _ | .cmpR _ _ _ | .cpcR _ _ _ | .movR _ _ | .setR _ _ | .sefR _ _ | .selR _ _ _
  | .addR _ _ _ | .dadR _ _ _ | .adcR _ _ _ | .dacR _ _ _ | .subR _ _ _ | .rsbR _ _ _ | .sbcR _ _ _ | .dscR _ _ _
  | .andR _ _ _ | .orR _ _ _ | .xorR _ _ _ | .mvlR _ _ | .adtR _ _ _ | .adfR _ _ _ | .sbtR _ _ _ | .sbfR _ _ _ => false
  | _ => true

/-- A word is a row of the undocumented encodings, in the order of the table of 30_encoding.md R74: mask and match, and
where the row excludes a value of bits 7:6, that value. -/
def Word.undocumentedRow (w : Word) : Bool :=
  let row (mask mtch : Word) : Bool := w &&& mask == mtch
  row 0xF8E0 0x0820 || (row 0xF800 0x0800 && fnF w != 0) || row 0xF8C0 0x1000 || (row 0xF820 0x1020 && fnF w != 0) ||
  row 0xF8E0 0x1820 || row 0xE0C0 0x2000 || row 0xF000 0x4000 || row 0xF840 0x5040 || row 0xF860 0x5020 ||
  row 0xF840 0x9040 || row 0xC020 0xC020 || row 0xF020 0xC000 || row 0xF860 0xD040 || row 0xFF20 0xD700 ||
  (row 0xFF20 0xDF00 && fnF w != 0) || (row 0xFF20 0xE700 && fnF w != 0) || (row 0xFF20 0xEF00 && fnF w != 0) ||
  (row 0xFF20 0xF700 && fnF w != 3)

/-! ## What numbers say (44_compare.md R160, R161; 41_arithmetic.md R121) -/

/-- A condition code over the three comparisons "unsigned at least", "equal", "signed at least". -/
def CC.over (cc : CC) (uge eq ge : Bool) : Bool :=
  match cc with
  | .eq => eq
  | .ne => !eq
  | .uge => uge
  | .ult => !uge
  | .ge => ge
  | .lt => !ge
  | .ugt => uge && !eq
  | .gt => ge && !eq

/-- The relation a condition code names between two numbers of one width. -/
def CC.holds {w : Nat} (cc : CC) (p q : BitVec w) : Bool :=
  cc.over (decide (q.toNat ≤ p.toNat)) (decide (p = q)) (decide (q.toInt ≤ p.toInt))

/-- `w` is packed BCD for the number `n`: four decimal digits, the units in bits 3:0. -/
def IsDecimal (w : Word) (n : Nat) : Prop :=
  ∃ d3 d2 d1 d0 : Nat, d3 ≤ 9 ∧ d2 ≤ 9 ∧ d1 ≤ 9 ∧ d0 ≤ 9 ∧
    w.toNat = d3 * 4096 + d2 * 256 + d1 * 16 + d0 ∧ n = d3 * 1000 + d2 * 100 + d1 * 10 + d0

namespace Machine

/-! ## What an instruction wrote -/

/-- From `s` to `t`, the destination `d` received `v`, and no other register of R0 to R6 and no other data word changed. A
destination PC receives `v` as the next program counter (10_state.md R17). -/
def State.wrote (s t : State) (d : Dest) (v : Word) : Prop :=
  match d with
  | .reg r =>
    (r = .pc → t.pc = v) ∧ (r ≠ .pc → t.readReg r = v) ∧
    (∀ q, q ≠ .pc → q ≠ r → t.readReg q = s.readReg q) ∧ (∀ a, t.readData a = s.readData a)
  | .mem ea =>
    t.readData ea = .ok v ∧ (∀ a, a ≠ ea → t.readData a = s.readData a) ∧
    (∀ q, q ≠ .pc → t.readReg q = s.readReg q)

/-- From `s` to `t`, no register of R0 to R6 and no data word changed. -/
def State.wroteNothing (s t : State) : Prop :=
  (∀ q, q ≠ .pc → t.readReg q = s.readReg q) ∧ (∀ a, t.readData a = s.readData a)

/-- From `s` to `t`, program memory and the run state did not change. -/
def State.keptRest (s t : State) : Prop := (∀ a, t.readProg a = s.readProg a) ∧ t.halted = s.halted

/-- The flags of `t`. -/
def State.flagsAre (t : State) (T C Z : Bool) : Prop := t.t = T ∧ t.c = C ∧ t.z = Z

/-- The flags of `t` are those of `s`. -/
def State.sameFlags (s t : State) : Prop := t.flagsAre s.t s.c s.z

/-- An instruction that started in `s` completes: it answers a next state, its destination `d` received `v`, the flags are
as `flags` says, and everything else among R0 to R6, data memory, program memory and the run state is unchanged. -/
def Completes (o : Answer) (s : State) (d : Dest) (v : Word) (flags : State → Prop) : Prop :=
  ∃ t, o = .next t ∧ s.wrote t d v ∧ flags t ∧ s.keptRest t

/-- An instruction that started in `s` completes without writing a register of R0 to R6 or a data word, and execution goes
on at the following instruction. -/
def CompletesNone (o : Answer) (s : State) (flags : State → Prop) : Prop :=
  ∃ t, o = .next t ∧ s.wroteNothing t ∧ t.pc = s.pc + 1 ∧ flags t ∧ s.keptRest t

/-! ## One claim over every form of a mnemonic (40_cycle_and_prefix.md R100) -/

/-- A claim about an instruction that starts in a state with destination DEST and sources S1 and S2. -/
abbrev Effect := Instr → State → Dest → Word → Word → Prop

/-- The claim for the same instruction with S1 and S2 exchanged. -/
def Effect.swap (P : Effect) : Effect := fun i s d a b => P i s d b a

/-- I-type: S1 is the old destination, S2 the immediate. -/
def ImmForm (mk : Reg → Imm5 → Instr) (P : Effect) : Prop :=
  ∀ s ri k, P (mk ri k) s (.reg ri) (s.readReg ri) (s.imm16 k)

/-- I-type with destination PC, under its branch name. -/
def PcForm (mk : Imm5 → Instr) (P : Effect) : Prop :=
  ∀ s k, P (mk k) s (.reg .pc) (s.readReg .pc) (s.imm16 k)

/-- R-type: S1 and S2 are the two source registers. -/
def RegForm (mk : Reg → Reg → Reg → Instr) (P : Effect) : Prop :=
  ∀ s ri rj rk, P (mk ri rj rk) s (.reg ri) (s.readReg rj) (s.readReg rk)

/-- Load from the address `a`: S1 is the old destination, S2 the data word, which has been written wherever the
instruction `needs` it. -/
def LoadForm (needs : State → Prop) (mk : Reg → Instr) (a : Addr) (P : Effect) : Prop :=
  ∀ s ri m, (needs s → s.readData (s.ea a) = .ok m) → P (mk ri) s (.reg ri) (s.readReg ri) m

/-- Store to the address `a`, which is installed: S1 is the old data word, which has been written wherever the
instruction `needs` it, S2 the register, DEST the data word. -/
def StoreForm (needs : State → Prop) (mk : Reg → Instr) (a : Addr) (P : Effect) : Prop :=
  ∀ s ri m, (s.ea a).toNat < s.dataWords → (needs s → s.readData (s.ea a) = .ok m) →
    P (mk ri) s (.mem (s.ea a)) m (s.readReg ri)

/-- ZP-type loads. -/
def DirectLoad (needs : State → Prop) (mk : Reg → Imm5 → Instr) (P : Effect) : Prop :=
  ∀ k, LoadForm needs (fun ri => mk ri k) (.direct k) P

/-- ZP-type stores. -/
def DirectStore (needs : State → Prop) (mk : Reg → Imm5 → Instr) (P : Effect) : Prop :=
  ∀ k, StoreForm needs (fun ri => mk ri k) (.direct k) P

/-- M-type loads. -/
def IndexedLoad (needs : State → Prop) (mk : Reg → AReg → Imm5 → Instr) (P : Effect) : Prop :=
  ∀ an k, LoadForm needs (fun ri => mk ri an k) (.indexed an k) P

/-- M-type stores. -/
def IndexedStore (needs : State → Prop) (mk : Reg → AReg → Imm5 → Instr) (P : Effect) : Prop :=
  ∀ an k, StoreForm needs (fun ri => mk ri an k) (.indexed an k) P

/-- The word is needed in every state. -/
def always : State → Prop := fun _ => True

/-- The word is never needed. -/
def never : State → Prop := fun _ => False

/-- The word is needed where T has this value. -/
def whenT (b : Bool) : State → Prop := fun s => s.t = b

/-- The instruction completes with the value `v` of its sources in its destination and the flags as `flags` says. -/
def Yields (v : State → Word → Word → Word) (flags : State → Word → Word → State → Prop) : Effect :=
  fun i s d a b => Completes (exec i s) s d (v s a b) (flags s a b)

/-- The instruction completes: with the value `v` of its sources in its destination where T is `want`, and without
writing anything where it is not; the flags stay in both. -/
def YieldsIfT (want : Bool) (v : Word → Word → Word) : Effect :=
  fun i s d a b =>
    (s.t = want → Completes (exec i s) s d (v a b) s.sameFlags) ∧
    (s.t ≠ want → CompletesNone (exec i s) s s.sameFlags)

/-- `r` is zero. -/
def isZero (r : Word) : Bool := decide (r = 0)

/-! ## A safe run -/

/-- The installed sizes are legal, both memories are in their canonical form, and no prefix is pending in a halted machine
(92_eei_decisions.md D14; 48_nop_hlt.md R231, 40_cycle_and_prefix.md R96). -/
def State.Inv (s : State) : Prop :=
  Config.legalSizes s.progWords s.dataWords ∧
  Memory.wf s.progWords s.prog ∧ Memory.wf s.dataWords s.data ∧ (s.halted = true → s.pfr = 0)

/-- Every installed word of both memories has been written. -/
def State.fullyWritten (s : State) : Prop :=
  (∀ a, a.toNat < s.progWords → ∃ v, s.readProg a = .ok v) ∧ (∀ a, a.toNat < s.dataWords → ∃ v, s.readData a = .ok v)

end Machine

end Sys2Proof
end

