-- ==== Sys2Proof/Certificates/Slice0/Obligations.lean ====
section
/-! DEFINITION. The statements about this model, for the provers. Where a statement rests on the spec's own decision or on
a choice of the model, its docstring names it. -/

open Sys2Proof Sys2Proof.Machine

/-! ## Arithmetic -/

/-- 41_arithmetic.md R111: `add` in every form, and `b+`, which is `add K, PC`. -/
def Obligations.AddInEveryForm : Prop :=
  let add : Effect := Yields (fun _ a b => a + b) fun _ a b t =>
    t.flagsAre (isZero (a + b)) (decide (65536 ≤ a.toNat + b.toNat)) (isZero (a + b))
  (ImmForm .addI add ∧ PcForm .bPlus add ∧ RegForm .addR add ∧
    IndexedLoad always .addML add ∧ IndexedStore always .addMS add ∧
    DirectLoad always .addZL add ∧ DirectStore always .addZS add) ∧
  (∀ ri rj rk an k,
    decode (packI 4 ri 0 k) = .ok (if ri = .pc then .bPlus k else .addI ri k) ∧
    decode (packR 4 (regBits ri) 0 rj rk) = .ok (.addR ri rj rk) ∧
    decode (packM 4 ri an 0 k) = .ok (.addML ri an k) ∧ decode (packM 4 ri an 1 k) = .ok (.addMS ri an k) ∧
    decode (packZ 4 ri 0 0 k) = .ok (.addZL ri k) ∧ decode (packZ 4 ri 0 1 k) = .ok (.addZS ri k))

/-- 41_arithmetic.md R115, R119: `sub` in every form, and `b-`. The R-type order and the order of the store forms are the
spec's decisions D5 and D6 (log 11, log 12). -/
def Obligations.SubInEveryForm : Prop :=
  let sub : Effect := Yields (fun _ p q => p - q) fun _ p q t =>
    t.flagsAre (isZero (p - q)) (decide (q.toNat ≤ p.toNat)) (isZero (p - q))
  ImmForm .subI sub ∧ PcForm .bMinus sub ∧ RegForm .subR sub ∧
  IndexedLoad always .subML sub ∧ IndexedStore always .subMS sub.swap ∧
  DirectLoad always .subZL sub ∧ DirectStore always .subZS sub.swap

/-- 41_arithmetic.md R116, R119: `rsb` subtracts in the order opposite to `sub` in every form (decisions D5, D6; log 11,
log 12). -/
def Obligations.RsbInEveryForm : Prop :=
  let rsb : Effect := Yields (fun _ p q => q - p) fun _ p q t =>
    t.flagsAre (isZero (q - p)) (decide (p.toNat ≤ q.toNat)) (isZero (q - p))
  ImmForm .rsbI rsb ∧ RegForm .rsbR rsb ∧ DirectLoad always .rsbZL rsb ∧ DirectStore always .rsbZS rsb.swap

/-- 41_arithmetic.md R113, R120: `adc` in every form. The Z of a carry-in instruction is the spec's decision D18
(log 19). -/
def Obligations.AdcInEveryForm : Prop :=
  let sum (s : State) (a b : Word) : Word := a + b + BitVec.ofNat 16 s.c.toNat
  let adc : Effect := Yields sum fun s a b t =>
    t.flagsAre (s.z && isZero (sum s a b)) (decide (65536 ≤ a.toNat + b.toNat + s.c.toNat)) (s.z && isZero (sum s a b))
  ImmForm .adcI adc ∧ RegForm .adcR adc ∧ DirectLoad always .adcZL adc ∧ DirectStore always .adcZS adc

/-- 41_arithmetic.md R117, R119, R120: `sbc` in every form, where the borrow is the complement of C (decisions D5, D6,
D18; log 11, log 12, log 19). -/
def Obligations.SbcInEveryForm : Prop :=
  let borrow (s : State) : Nat := if s.c then 0 else 1
  let diff (s : State) (p q : Word) : Word := p - q - BitVec.ofNat 16 (borrow s)
  let sbc : Effect := Yields diff fun s p q t =>
    t.flagsAre (s.z && isZero (diff s p q)) (decide (q.toNat + borrow s ≤ p.toNat)) (s.z && isZero (diff s p q))
  ImmForm .sbcI sbc ∧ RegForm .sbcR sbc ∧ DirectLoad always .sbcZL sbc ∧ DirectStore always .sbcZS sbc.swap

/-- 41_arithmetic.md R112, R114, R121: `dad` and `dac` on decimal operands add decimal numbers modulo 10000. The digit
layout is the spec's general knowledge G1 (PRESUMED, log 16), the Z of `dac` its decision D18 (log 19). -/
def Obligations.BcdAddOnDecimals : Prop :=
  let adds (cin : State → Nat) (keep : State → Bool) : Effect := fun i s d a b =>
    ∀ x y, IsDecimal a x → IsDecimal b y → ∃ r, IsDecimal r ((x + y + cin s) % 10000) ∧
      Completes (exec i s) s d r fun t =>
        t.flagsAre (keep s && isZero r) (decide (10000 ≤ x + y + cin s)) (keep s && isZero r)
  let dad : Effect := adds (fun _ => 0) (fun _ => true)
  let dac : Effect := adds (fun s => s.c.toNat) (fun s => s.z)
  (ImmForm .dadI dad ∧ RegForm .dadR dad ∧ DirectLoad always .dadZL dad ∧ DirectStore always .dadZS dad) ∧
  (ImmForm .dacI dac ∧ RegForm .dacR dac ∧ DirectLoad always .dacZL dac ∧ DirectStore always .dacZS dac)

/-- 41_arithmetic.md R118, R119, R121: `dsc` on decimal operands subtracts with the borrow, modulo 10000 (G1 PRESUMED,
log 16; decisions D5, D6, D18; log 11, log 12, log 19). -/
def Obligations.BcdSubtractOnDecimals : Prop :=
  let borrow (s : State) : Nat := if s.c then 0 else 1
  let dsc : Effect := fun i s d p q =>
    ∀ x y, IsDecimal p x → IsDecimal q y →
      ∃ r, IsDecimal r (((x : Int) - y - borrow s) % 10000).toNat ∧
        Completes (exec i s) s d r fun t =>
          t.flagsAre (s.z && isZero r) (decide (y + borrow s ≤ x)) (s.z && isZero r)
  ImmForm .dscI dsc ∧ RegForm .dscR dsc ∧ DirectLoad always .dscZL dsc ∧ DirectStore always .dscZS dsc.swap

/-- 41_arithmetic.md R121: on an operand with a digit above 9 the three BCD operations still complete, with the open
result and carry of `BCD_INVALID` (decision D9; log 15), which Z and T are computed from (the order of `dsc`:
decisions D5, D6, log 11, log 12; the Z of `dac` and `dsc`: D18, log 19). -/
def Obligations.BcdOpenResultCompletes : Prop :=
  let opened (op : BcdOp) (cin keep : State → Bool) : Effect := fun i s d a b =>
    (¬ (∃ x y, IsDecimal a x ∧ IsDecimal b y)) →
      let r := Config.bcdInvalid op a b (cin s)
      Completes (exec i s) s d r.1 fun t => t.flagsAre (keep s && isZero r.1) r.2 (keep s && isZero r.1)
  let dad : Effect := opened .dad (fun _ => false) (fun _ => true)
  let dac : Effect := opened .dac (fun s => s.c) (fun s => s.z)
  let dsc : Effect := opened .dsc (fun s => s.c) (fun s => s.z)
  (ImmForm .dadI dad ∧ RegForm .dadR dad ∧ DirectLoad always .dadZL dad ∧ DirectStore always .dadZS dad) ∧
  (ImmForm .dacI dac ∧ RegForm .dacR dac ∧ DirectLoad always .dacZL dac ∧ DirectStore always .dacZS dac) ∧
  (ImmForm .dscI dsc ∧ RegForm .dscR dsc ∧ DirectLoad always .dscZL dsc ∧ DirectStore always .dscZS dsc.swap)

/-- 41_arithmetic.md R113, R120: `add` on the low words followed by `adc` on the high words is the 32-bit addition, with
the 32-bit carry in C and the 32-bit zero in Z (decision D18; log 19). -/
def Obligations.AddThenAdcIsWide : Prop :=
  ∀ s (dl dh lj lk hj hk : Reg),
    ∃ u, exec (.addR dl lj lk) s = .next u ∧ ∃ t, exec (.adcR dh hj hk) u = .next t ∧
      let x : BitVec 32 := u.readReg hj ++ s.readReg lj
      let y : BitVec 32 := u.readReg hk ++ s.readReg lk
      t.c = decide (2 ^ 32 ≤ x.toNat + y.toNat) ∧ t.z = decide (x + y = 0) ∧ t.t = decide (x + y = 0) ∧
      (dl ≠ .pc → u.readReg dl = (x + y).extractLsb' 0 16) ∧
      (dh ≠ .pc → t.readReg dh = (x + y).extractLsb' 16 16)

/-! ## Bitwise, shifts and rotates -/

/-- 42_bitwise.md R130 to R132: `and`, `or` and `xor` in every form. -/
def Obligations.BitwiseInEveryForm : Prop :=
  let bitwise (f : Word → Word → Word) : Effect := Yields (fun _ => f) fun _ a b t =>
    t.flagsAre (isZero (f a b)) false (isZero (f a b))
  (ImmForm .andI (bitwise (· &&& ·)) ∧ RegForm .andR (bitwise (· &&& ·)) ∧
    IndexedLoad always .andML (bitwise (· &&& ·)) ∧ IndexedStore always .andMS (bitwise (· &&& ·)) ∧
    DirectLoad always .andZL (bitwise (· &&& ·)) ∧ DirectStore always .andZS (bitwise (· &&& ·))) ∧
  (ImmForm .orI (bitwise (· ||| ·)) ∧ RegForm .orR (bitwise (· ||| ·)) ∧
    DirectLoad always .orZL (bitwise (· ||| ·)) ∧ DirectStore always .orZS (bitwise (· ||| ·))) ∧
  (ImmForm .xorI (bitwise (· ^^^ ·)) ∧ RegForm .xorR (bitwise (· ^^^ ·)) ∧
    DirectLoad always .xorZL (bitwise (· ^^^ ·)) ∧ DirectStore always .xorZS (bitwise (· ^^^ ·)))

/-- 43_shift_rotate.md R141 to R144: the four shifts, with C and T as R149 says; nothing is said of Z (log 14). Whatever
the `Rk` field holds, the word is the same instruction. -/
def Obligations.ShiftsOfOneRegister : Prop :=
  let shift (v : Word → Word) (out : Word → Prop) (mk : Reg → Reg → Instr) : Prop :=
    ∀ s ri rj, Completes (exec (mk ri rj) s) s (.reg ri) (v (s.readReg rj)) fun t =>
      (t.c = true ↔ out (s.readReg rj)) ∧ (t.t = true ↔ out (s.readReg rj))
  (shift (fun a => a >>> 1) (fun a => a.toNat % 2 ≠ 0) .sr1R ∧
    shift (fun a => a >>> 4) (fun a => a.toNat % 16 ≠ 0) .sr4R ∧
    shift (fun a => a <<< 1) (fun a => a.toNat / 32768 ≠ 0) .sl1R ∧
    shift (fun a => a <<< 4) (fun a => a.toNat / 4096 ≠ 0) .sl4R) ∧
  (∀ ri rj rk,
    decode (packR 0 (regBits ri) 0 rj rk) = .ok (.sr1R ri rj) ∧
    decode (packR 0 (regBits ri) 2 rj rk) = .ok (.sr4R ri rj) ∧
    decode (packR 1 (regBits ri) 0 rj rk) = .ok (.sl1R ri rj) ∧
    decode (packR 1 (regBits ri) 2 rj rk) = .ok (.sl4R ri rj))

/-- 43_shift_rotate.md R145 to R149: the four rotates take the incoming bits from the second register; C and T say what
left the first one (R149 applied to the rotates is the spec's inference, log 34); nothing is said of Z (log 14). -/
def Obligations.RotatesOfTwoRegisters : Prop :=
  let rotate (v : Nat → Nat → Nat) (out : Nat → Prop) (mk : Reg → Reg → Reg → Instr) : Prop :=
    ∀ s ri rj rk, ∃ r : Word, r.toNat = v (s.readReg rj).toNat (s.readReg rk).toNat ∧
      Completes (exec (mk ri rj rk) s) s (.reg ri) r fun t =>
        (t.c = true ↔ out (s.readReg rj).toNat) ∧ (t.t = true ↔ out (s.readReg rj).toNat)
  rotate (fun a b => a / 2 + 32768 * (b % 2)) (fun a => a % 2 ≠ 0) .rr1R ∧
  rotate (fun a b => a / 16 + 4096 * (b % 16)) (fun a => a % 16 ≠ 0) .rr4R ∧
  rotate (fun a b => a * 2 % 65536 + b / 32768) (fun a => a / 32768 ≠ 0) .rl1R ∧
  rotate (fun a b => a * 16 % 65536 + b / 4096) (fun a => a / 4096 ≠ 0) .rl4R

/-! ## Compare -/

/-- 44_compare.md R160 to R162, R165: `cmp.cc Rj, Rk` sets T to the relation of the two registers, C to no borrow and Z to
equality, and writes nothing else. S and V are the spec's general knowledge G2 (PRESUMED, log 26), the order its decision
D5 (log 11), C and Z as `sub` its inference (log 32), the wrap of `pc + 1` its decision D2 (log 9). -/
def Obligations.CompareOfRegisters : Prop :=
  ∀ s cc rj rk,
    let p := s.readReg rj
    let q := s.readReg rk
    CompletesNone (exec (.cmpR cc rj rk) s) s fun t =>
      t.flagsAre (cc.holds p q) (decide (q.toNat ≤ p.toNat)) (decide (p = q))

/-- 44_compare.md R162, R164, R165: the other forms of `cmp` compare the register with the immediate or the data word for
equality (decision D5, log 11; C and Z as `sub`, and R164 outside M and ZP, log 32; wrap of `pc + 1`, D2, log 9). -/
def Obligations.CompareForEquality : Prop :=
  let cmp : Effect := fun i s _ p q => CompletesNone (exec i s) s fun t =>
    t.flagsAre (decide (p = q)) (decide (q.toNat ≤ p.toNat)) (decide (p = q))
  ImmForm .cmpI cmp ∧ IndexedLoad always .cmpML cmp ∧ DirectLoad always .cmpZL cmp

/-- 44_compare.md R160, R161, R163 to R165: `cpc` in every form takes the borrow of C and the equality of Z into the
comparison (decisions D5, D18; log 11, log 19; PRESUMED, log 26). That outside R-type it tests `eq`, and that it writes no
destination, is the spec's inference (log 32); the wrap of `pc + 1` is decision D2 (log 9). -/
def Obligations.CompareWithCarry : Prop :=
  let cpc (cc : CC) : Effect := fun i s _ p q =>
    let borrow : Nat := if s.c then 0 else 1
    let uge := decide (q.toNat + borrow ≤ p.toNat)
    let eq := s.z && isZero (p - q - BitVec.ofNat 16 borrow)
    let ge := decide (q.toInt + borrow ≤ p.toInt)
    CompletesNone (exec i s) s fun t => t.flagsAre (cc.over uge eq ge) uge eq
  ImmForm .cpcI (cpc .eq) ∧ DirectLoad always .cpcZL (cpc .eq) ∧
  (∀ s cc rj rk, cpc cc (.cpcR cc rj rk) s (.reg .r0) (s.readReg rj) (s.readReg rk))

/-- 44_compare.md R163: `cmp` on the low words, with any condition code, followed by `cpc.cc` on the high words sets T to
the relation `cc` of the two 32-bit numbers, C to the 32-bit no borrow and Z to 32-bit equality (the spec's inference;
decisions D5, D18, log 11, log 19; G2, log 26; C and Z of `cmp`, log 32). -/
def Obligations.CmpThenCpcIsWide : Prop :=
  ∀ s (cl ch : CC) (lj lk hj hk : Reg),
    ∃ u, exec (.cmpR cl lj lk) s = .next u ∧ ∃ t, exec (.cpcR ch hj hk) u = .next t ∧
      let x : BitVec 32 := u.readReg hj ++ s.readReg lj
      let y : BitVec 32 := u.readReg hk ++ s.readReg lk
      t.flagsAre (ch.holds x y) (decide (y.toNat ≤ x.toNat)) (decide (x = y))

/-! ## Moves -/

/-- 45_move.md R180: `mov` in every form copies its source and keeps the flags; a store form needs no old data word. The
R-type source field is the spec's decision D7 (log 13). -/
def Obligations.MovInEveryForm : Prop :=
  let mov : Effect := Yields (fun _ _ b => b) fun s _ _ => s.sameFlags
  ImmForm .movI mov ∧ RegForm (fun ri _ rk => .movR ri rk) mov ∧
  IndexedLoad always .movML mov ∧ IndexedStore never .movMS mov ∧
  DirectLoad always .movZL mov ∧ DirectStore never .movZS mov

/-- 47_branch_link.md R211: `j` goes to the absolute 16-bit immediate and changes no flag, register or data word; it is
`mov K, PC`; without a prefix it reaches addresses 0 to 31, and with one every address. -/
def Obligations.AbsoluteJump : Prop :=
  (∀ s k, Completes (exec (.j k) s) s (.reg .pc) (s.imm16 k) s.sameFlags ∧ exec (.j k) s = exec (.movI .pc k) s) ∧
  (∀ s k, s.pfr = 0 → ∃ t, exec (.j k) s = .next t ∧ t.pc = k.setWidth 16) ∧
  (∀ s (target : Word), ∃ u, exec (.pfx ((target >>> 5).setWidth 11)) s = .next u ∧
    ∃ t, exec (.j (target.setWidth 5)) u = .next t ∧ t.pc = target ∧ s.sameFlags t)

/-- 45_move.md R182, R183, R185: `set` and `sef` in every form write the source or 0, by T; the flags stay (decision D19;
log 20), and a data word is read only where it is used (log 28). -/
def Obligations.SetAndSefInEveryForm : Prop :=
  let set : Effect := Yields (fun s _ b => if s.t then b else 0) fun s _ _ => s.sameFlags
  let sef : Effect := Yields (fun s _ b => if s.t then 0 else b) fun s _ _ => s.sameFlags
  (ImmForm .setI set ∧ RegForm (fun ri _ rk => .setR ri rk) set ∧
    DirectLoad (whenT true) .setZL set ∧ DirectStore never .setZS set) ∧
  (ImmForm .sefI sef ∧ RegForm (fun ri _ rk => .sefR ri rk) sef ∧
    DirectLoad (whenT false) .sefZL sef ∧ DirectStore never .sefZS sef)

/-- 45_move.md R184, R185: `sel` in every form writes the second source where T is set and the first where it is not; the
flags stay (decision D19; log 20), and a data word is read only where it is chosen (log 28). -/
def Obligations.SelInEveryForm : Prop :=
  let sel : Effect := Yields (fun s a b => if s.t then b else a) fun s _ _ => s.sameFlags
  ImmForm .selI sel ∧ RegForm .selR sel ∧
  DirectLoad (whenT true) .selZL sel ∧ DirectStore (whenT false) .selZS sel

/-- 45_move.md R181: `lp` loads the program word that a register addresses, keeps the flags and takes two cycles; with PC as
a register the general rules hold (decision D22; log 24; cycles, log 27). -/
def Obligations.LpLoadsProgramWord : Prop :=
  ∀ s ri rk w, s.readProg (s.readReg rk) = .ok w →
    Completes (exec (.lp ri rk) s) s (.reg ri) w fun t => s.sameFlags t ∧ t.cycles = s.cycles + 2

/-! ## Conditional arithmetic and conditional branches -/

/-- 46_conditional_arithmetic.md R200, R201, R204 and 47_branch_link.md R214, R215: `adt` and `adf` in every form, and
`bt+` and `bf+`, add only where T has their value, and write no register of R0 to R6, data word or flag where it has not:
execution goes on at the following instruction (`pc + 1` wraps by decision D2, log 9; no data word is read for nothing,
log 28). -/
def Obligations.ConditionalAdd : Prop :=
  let add (want : Bool) : Effect := YieldsIfT want fun a b => a + b
  (ImmForm .adtI (add true) ∧ PcForm .btPlus (add true) ∧ RegForm .adtR (add true) ∧
    IndexedLoad (whenT true) .adtML (add true) ∧ IndexedStore (whenT true) .adtMS (add true) ∧
    DirectLoad (whenT true) .adtZL (add true) ∧ DirectStore (whenT true) .adtZS (add true)) ∧
  (ImmForm .adfI (add false) ∧ PcForm .bfPlus (add false) ∧ RegForm .adfR (add false) ∧
    DirectLoad (whenT false) .adfZL (add false) ∧ DirectStore (whenT false) .adfZS (add false))

/-- 46_conditional_arithmetic.md R202 to R204 and 47_branch_link.md R216, R217: `sbt` and `sbf` in every form, and `bt-` and
`bf-` (decisions D2, D5, D6; log 9, log 11, log 12, log 28). -/
def Obligations.ConditionalSubtract : Prop :=
  let sub (want : Bool) : Effect := YieldsIfT want fun p q => p - q
  (ImmForm .sbtI (sub true) ∧ PcForm .btMinus (sub true) ∧ RegForm .sbtR (sub true) ∧
    DirectLoad (whenT true) .sbtZL (sub true) ∧ DirectStore (whenT true) .sbtZS (sub true).swap) ∧
  (ImmForm .sbfI (sub false) ∧ PcForm .bfMinus (sub false) ∧ RegForm .sbfR (sub false) ∧
    DirectLoad (whenT false) .sbfZL (sub false) ∧ DirectStore (whenT false) .sbfZS (sub false).swap)

/-- 47_branch_link.md R212 to R217: where the relative branches go, from the address of the branch word itself (decisions D1,
D2; log 8, log 9). -/
def Obligations.RelativeBranchTargets : Prop :=
  ∀ s k,
    (∃ t, exec (.bPlus k) s = .next t ∧ t.pc.toNat = (s.pc.toNat + (s.imm16 k).toNat) % 65536) ∧
    (∃ t, exec (.bMinus k) s = .next t ∧ t.pc.toNat = (s.pc.toNat + 65536 - (s.imm16 k).toNat) % 65536) ∧
    (∃ t, exec (.btPlus k) s = .next t ∧ t.pc.toNat = (s.pc.toNat + if s.t then (s.imm16 k).toNat else 1) % 65536) ∧
    (∃ t, exec (.bfPlus k) s = .next t ∧ t.pc.toNat = (s.pc.toNat + if s.t then 1 else (s.imm16 k).toNat) % 65536) ∧
    (∃ t, exec (.btMinus k) s = .next t ∧
      t.pc.toNat = (if s.t then s.pc.toNat + 65536 - (s.imm16 k).toNat else s.pc.toNat + 1) % 65536) ∧
    (∃ t, exec (.bfMinus k) s = .next t ∧
      t.pc.toNat = (if s.t then s.pc.toNat + 1 else s.pc.toNat + 65536 - (s.imm16 k).toNat) % 65536)

/-! ## Move and link -/

/-- 47_branch_link.md R218, R219: `mvl` in every form, and `jl`, first write the address of the following instruction to R6,
then move: a source R6 is read after the link, a destination R6 is written over it (decisions D2, D21; log 9, log 23). -/
def Obligations.MoveAndLink : Prop :=
  ∀ s : State,
    let linked : State := { s with r6 := s.pc + 1 }
    let moves (i : Instr) (d : Dest) (v : Word) : Prop := Completes (exec i s) linked d v s.sameFlags
    (∀ ri k, moves (.mvlI ri k) (.reg ri) (s.imm16 k)) ∧ (∀ k, moves (.jl k) (.reg .pc) (s.imm16 k)) ∧
    (∀ ri rk, moves (.mvlR ri rk) (.reg ri) (linked.readReg rk)) ∧
    (∀ ri k m, s.readData (s.ea (.direct k)) = .ok m → moves (.mvlZL ri k) (.reg ri) m) ∧
    (∀ ri k, (s.ea (.direct k)).toNat < s.dataWords →
      moves (.mvlZS ri k) (.mem (s.ea (.direct k))) (linked.readReg ri))

/-- 47_branch_link.md R219, R220: a `jl` goes to its target, and `mov r6, PC` executed anywhere with that R6 comes back to
the instruction after the `jl` (decision D2, log 9). -/
def Obligations.CallAndReturn : Prop :=
  ∀ s k, ∃ u, exec (.jl k) s = .next u ∧ u.pc = s.imm16 k ∧
    ∀ v : State, v.r6 = u.r6 → ∃ t, exec (.movR .pc .r6) v = .next t ∧ t.pc = s.pc + 1

/-! ## Prefix, no-operation, halt -/

/-- 48_nop_hlt.md R230 and 40_cycle_and_prefix.md R92: the whole next state of `nop` and of `pfx`; `nop` is `pfx 0`
(wrap: decision D2, log 9; the cycle counter is the model's own, log 27). -/
def Obligations.NopAndPrefix : Prop :=
  ∀ s : State,
    exec .nop s = .next { s with pc := s.pc + 1, pfr := 0, cycles := s.cycles + 1 } ∧
    (∀ k, exec (.pfx k) s = .next { s with pc := s.pc + 1, pfr := k, cycles := s.cycles + 1 }) ∧
    exec .nop s = exec (.pfx 0) s

/-- 48_nop_hlt.md R231: the whole next state of `hlt` (decision D20; log 21; wrap, D2, log 9; PFR, D3,
log 10; the cycle counter is the model's own, log 27). -/
def Obligations.HaltStopsTheClock : Prop :=
  ∀ s : State, exec .hlt s = .next { s with halted := true, pc := s.pc + 1, pfr := 0, cycles := s.cycles + 1 }

/-- 40_cycle_and_prefix.md R94, R97: after `pfx (K >> 5)` the immediate with the low five bits of `K` is `K`, and a second
`pfx` replaces the first (decision D3; log 10). -/
def Obligations.PrefixSuppliesUpperBits : Prop :=
  (∀ s (v : Word), ∃ t, exec (.pfx ((v >>> 5).setWidth 11)) s = .next t ∧ t.imm16 (v.setWidth 5) = v) ∧
  (∀ s k l, ∃ u, exec (.pfx k) s = .next u ∧ ∃ t, exec (.pfx l) u = .next t ∧ t.pfr = l)

/-- 40_cycle_and_prefix.md R94: the immediate is the prefix above the five bits of the field. -/
def Obligations.ImmediateIsPrefixThenField : Prop :=
  ∀ (s : State) (k : Imm5), (s.imm16 k).extractLsb' 5 11 = s.pfr ∧ (s.imm16 k).extractLsb' 0 5 = k ∧
    (s.pfr = 0 → (s.imm16 k).toNat = k.toNat)

/-! ## Addresses and memory -/

/-- 20_memory.md R47: a direct address is the immediate, 0 to 31 without a prefix, any word with one. -/
def Obligations.DirectAddressIsImmediate : Prop :=
  (∀ (s : State) (k : Imm5), s.ea (.direct k) = s.imm16 k ∧ (s.pfr = 0 → (s.ea (.direct k)).toNat ≤ 31)) ∧
  (∀ (s : State) (m : Word), ({ s with pfr := (m >>> 5).setWidth 11 } : State).ea (.direct (m.setWidth 5)) = m)

/-- 20_memory.md R46: an indexed address is the sum of A0, A1 or A2 and the immediate, modulo 65536 (decision D2, log 9). -/
def Obligations.IndexedAddressWraps : Prop :=
  ∀ (s : State) (k : Imm5),
    (s.ea (.indexed .a0 k)).toNat = (s.r4.toNat + (s.imm16 k).toNat) % 65536 ∧
    (s.ea (.indexed .a1 k)).toNat = (s.r5.toNat + (s.imm16 k).toNat) % 65536 ∧
    (s.ea (.indexed .a2 k)).toNat = (s.r6.toNat + (s.imm16 k).toNat) % 65536

/-- 20_memory.md R45, R50: data memory is plain storage (decision D16, log 18): a word stored by `mov Ri, [M]` is what a
later load of that address reads, in the state right after and in any later state with that data memory. -/
def Obligations.StoreThenLoad : Prop :=
  ∀ s ri k, (s.ea (.direct k)).toNat < s.dataWords → ∃ t, exec (.movZS ri k) s = .next t ∧
    ∀ (u : State) (rd : Reg) (l : Imm5), u.data = t.data → u.dataWords = t.dataWords → u.ea (.direct l) = s.ea (.direct k) → rd ≠ .pc →
      ∃ v, exec (.movZL rd l) u = .next v ∧ v.readReg rd = s.readReg ri

/-- 20_memory.md R41, R52, 00_scope.md R4: no instruction changes program memory, or how much of either memory is installed
(log 7). -/
def Obligations.ProgramMemoryNeverChanges : Prop :=
  let kept (s t : State) : Prop := t.prog = s.prog ∧ t.progWords = s.progWords ∧ t.dataWords = s.dataWords
  (∀ i s t, exec i s = .next t → kept s t) ∧ (∀ s t, step s = .next t → kept s t)

/-- 20_memory.md R42, R49: an instruction that is no store leaves data memory alone, and a store leaves every word but the one
at its effective address alone. -/
def Obligations.OnlyStoresWriteData : Prop :=
  ∀ i s t, exec i s = .next t →
    (i.storeAddr = none → t.data = s.data) ∧
    (∀ a, i.storeAddr = some a → ∀ b, b ≠ s.ea a → t.readData b = s.readData b)

/-- 10_state.md R28 and 60_exceptions.md R241: an instruction that reads an unwritten data word, in any load form and in any
store form that needs the old word, `lp` of an unwritten program word and the fetch of one are a model-level fault (the spec's
decision D24 as far as memory goes, log 6; which forms read: log 28). -/
def Obligations.UnwrittenWordFaults : Prop :=
  ∀ s : State,
    (∀ i a, i.dataRead s.t = some a → (s.ea a).toNat < s.dataWords → s.data.read (s.ea a).toNat = none →
      exec i s = .fault (.uninitialised .data (s.ea a))) ∧
    (∀ ri rk, (s.readReg rk).toNat < s.progWords → s.prog.read (s.readReg rk).toNat = none →
      exec (.lp ri rk) s = .fault (.uninitialised .prog (s.readReg rk))) ∧
    (s.halted = false → s.pc.toNat < s.progWords → s.prog.read s.pc.toNat = none →
      step s = .fault (.uninitialised .prog s.pc))

/-- 20_memory.md R45, 60_exceptions.md R241, 00_scope.md R4: in a machine with less memory, an instruction that reads or writes
a data word that is not installed, `lp` of such a program word and the fetch of one are a model-level fault, whatever the
memories hold (the spec's decision D14 and its treatment U12; log 7; which forms read: log 28). -/
def Obligations.UninstalledAddressFaults : Prop :=
  ∀ s : State,
    (∀ i a, i.dataRead s.t = some a ∨ i.dataWrite s.t = some a → s.dataWords ≤ (s.ea a).toNat →
      exec i s = .fault (.outOfRange .data (s.ea a))) ∧
    (∀ ri rk, s.progWords ≤ (s.readReg rk).toNat →
      exec (.lp ri rk) s = .fault (.outOfRange .prog (s.readReg rk))) ∧
    (s.halted = false → s.progWords ≤ s.pc.toNat → step s = .fault (.outOfRange .prog s.pc))

/-- 60_exceptions.md R240: every instruction completes wherever the data word it reads has been written, the data word it
writes is installed and, for `lp`, the program word has been written; so it does in every state of a machine with all 65536
words of both memories installed and written. Installed words that are all written stay so (model-level faults: decisions
D14, D24; log 6, log 7, log 28). -/
def Obligations.EveryInstructionCompletes : Prop :=
  (∀ i s, (∀ a, i.dataRead s.t = some a → ∃ v, s.readData (s.ea a) = .ok v) →
    (∀ a, i.dataWrite s.t = some a → (s.ea a).toNat < s.dataWords) →
    (∀ ri rk, i = .lp ri rk → ∃ v, s.readProg (s.readReg rk) = .ok v) → ∃ t, exec i s = .next t) ∧
  (∀ i s, s.fullyWritten → s.progWords = 65536 → s.dataWords = 65536 → ∃ t, exec i s = .next t) ∧
  (∀ i s t, s.fullyWritten → exec i s = .next t → t.fullyWritten)

/-! ## Registers, flags and control, over every instruction -/

/-- 10_state.md R10 to R14, 40_cycle_and_prefix.md R101: an instruction changes no register of R0 to R6 but its destination, and
R6 where it is a move and link. -/
def Obligations.OnlyTheDestinationRegisterChanges : Prop :=
  ∀ i s t, exec i s = .next t → ∀ q, q ≠ .pc → i.destReg ≠ some q → ¬ (i.writesLink = true ∧ q = .r6) →
    t.readReg q = s.readReg q

/-- 10_state.md R20 to R24 and section 5: the instructions listed there as leaving T, C and Z alone do so (`set`, `sef`, `sel`:
decision D19, log 20). -/
def Obligations.FlagsKeptByTheListedInstructions : Prop :=
  ∀ i s t, exec i s = .next t → i.keepsFlags = true → s.sameFlags t

/-- 10_state.md R22, R23: an instruction that is no carry-in instruction does the same whatever C and Z are, and what it leaves of
them it passes on. The spec leaves Z after a shift or rotate open (R149, D8), the old Z included: that it does not depend on C
or Z here is the model's choice of a stream indexed by a counter alone (log 14), and so is that the open result and carry of
`dad` do not (D9; log 15). -/
def Obligations.CarryAndZeroReadOnlyByCarryIn : Prop :=
  ∀ i s (c z : Bool), i.readsCarry = false →
    exec i { s with c := c, z := z } =
      match exec i s with
      | .next t => .next (if i.keepsFlags then { t with c := c, z := z } else t)
      | .fault f => .fault f
      | .refused r => .refused r

/-- 10_state.md R21: an instruction that is not conditional does the same whatever T is, and what it leaves of it it passes
on. That the open Z of a shift or rotate does not depend on T is the model's choice (D8; log 14), and so is that the open BCD
result and carry do not (D9; log 15). -/
def Obligations.ConditionReadOnlyByConditionals : Prop :=
  ∀ i s (b : Bool), i.readsT = false →
    exec i { s with t := b } =
      match exec i s with
      | .next t => .next (if i.keepsFlags then { t with t := b } else t)
      | .fault f => .fault f
      | .refused r => .refused r

/-- 40_cycle_and_prefix.md R95: an instruction without an immediate field does the same whatever PFR is (decision D4, log 10).
That the open Z of a shift or rotate does not depend on PFR is the model's choice (D8; log 14), and so is that the open BCD
result and carry do not (D9; log 15). -/
def Obligations.PrefixReadOnlyByImmediates : Prop :=
  ∀ i s (p : Imm11), i.readsPrefix = false → exec i { s with pfr := p } = exec i s

/-- 40_cycle_and_prefix.md R95: every instruction other than `pfx` ends with PFR = 0 (decision D3, log 10). -/
def Obligations.PrefixLastsOneInstruction : Prop :=
  ∀ i s t, exec i s = .next t → (∀ k, i ≠ .pfx k) → t.pfr = 0

/-- 10_state.md R15, 40_cycle_and_prefix.md R91: an instruction that does not write register 7 goes on at the following address,
modulo 65536 (decision D2, log 9). -/
def Obligations.SequentialUnlessPcIsDestination : Prop :=
  ∀ i s t, exec i s = .next t → i.destReg ≠ some .pc → t.pc.toNat = (s.pc.toNat + 1) % 65536

/-- 10_state.md R16, R17: register 7 reads as the address of the instruction being executed (decision D1, log 8), and a move to it
is a jump (wrap of `pc + 1`: D2, log 9). -/
def Obligations.PcAsOperand : Prop :=
  ∀ s : State,
    (∀ r, r ≠ .pc → ∃ t, exec (.movR r .pc) s = .next t ∧ t.readReg r = s.pc ∧ t.pc = s.pc + 1) ∧
    (∀ r, r ≠ .pc → ∃ t, exec (.movR .pc r) s = .next t ∧ t.pc = s.readReg r)

/-- 10_state.md R26, 48_nop_hlt.md R232: `hlt` is the only instruction that changes the run state. -/
def Obligations.OnlyHltHalts : Prop :=
  ∀ i s t, exec i s = .next t → t.halted = (decide (i = .hlt) || s.halted)

/-- 70_reset_and_hazards.md R266: every instruction takes one instruction cycle, `lp` two (the counter is the model's own,
log 27), and a step of a halted machine none (log 21). -/
def Obligations.CyclesCounted : Prop :=
  (∀ i s t, exec i s = .next t → (∀ ri rk, i ≠ .lp ri rk) → t.cycles = s.cycles + 1) ∧
  (∀ ri rk s t, exec (.lp ri rk) s = .next t → t.cycles = s.cycles + 2) ∧
  (∀ s t, s.halted = true → step s = .next t → t.cycles = s.cycles)

/-! ## The step, reset, the host -/

/-- 40_cycle_and_prefix.md R90: a running machine whose word at `pc` decodes to `i` executes `i`. -/
def Obligations.StepRunsDecodedInstruction : Prop :=
  ∀ s w i, s.halted = false → s.readProg s.pc = .ok w → decode w = .ok i → step s = exec i s

/-- 60_exceptions.md R241, 48_nop_hlt.md R232: a running machine stops with a fault on an undocumented word (decision D15,
log 17), and a halted one stays as it is (decision D20, log 21). -/
def Obligations.StepStopsAndHalts : Prop :=
  (∀ s w, s.halted = false → s.readProg s.pc = .ok w → Word.undocumentedRow w = true →
    step s = .fault (.undocumented w)) ∧
  (∀ s, s.halted = true → step s = .next s)

/-- 48_nop_hlt.md R231, R232: the key restarts a machine that `hlt` stopped, at the instruction after the `hlt`, and changes
nothing else (decision D20, log 21; wrap, D2, log 9; PFR = 0, D3, log 10; the cycle counter is the model's own, log 27). While
the machine is halted the host writes a data word, a program word or a register, and nothing else changes; where the word is
not installed nothing changes at all (decision D13; its form, log 22). While the machine runs no act of the host changes it
(D13, D20; log 22). -/
def Obligations.HostActsOnTheHaltedMachine : Prop :=
  (∀ s t, s.halted = false → exec .hlt s = .next t →
    hostAct .keyPressed t = { s with pc := s.pc + 1, pfr := 0, cycles := s.cycles + 1 }) ∧
  (∀ s : State, s.halted = true →
    (∀ a v, let t := hostAct (.pokeData a v) s
      (a.toNat < s.dataWords → t.readData a = .ok v) ∧ (s.dataWords ≤ a.toNat → t = s) ∧
      (∀ b, b ≠ a → t.readData b = s.readData b) ∧ { t with data := s.data } = s) ∧
    (∀ a v, let t := hostAct (.pokeProg a v) s
      (a.toNat < s.progWords → t.readProg a = .ok v) ∧ (s.progWords ≤ a.toNat → t = s) ∧
      (∀ b, b ≠ a → t.readProg b = s.readProg b) ∧ { t with prog := s.prog } = s) ∧
    (∀ r v, let t := hostAct (.pokeReg r v) s
      (r = .pc → t.pc = v) ∧ (r ≠ .pc → t.readReg r = v) ∧ (∀ q, q ≠ r → t.readReg q = s.readReg q) ∧
      { t with r0 := s.r0, r1 := s.r1, r2 := s.r2, r3 := s.r3, r4 := s.r4, r5 := s.r5, r6 := s.r6, pc := s.pc } = s)) ∧
  (∀ s e, s.halted = false → hostAct e s = s)

/-- The reset state of a machine with legal sizes, the default one among them, meets the invariant (the spec's decisions D11,
D12, D14; log 5, log 6, log 7). -/
def Obligations.ResetMeetsInvariant : Prop :=
  State.reset.Inv ∧ ∀ p : Config.Params, Config.legalSizes p.progWords p.dataWords → (State.resetOf p).Inv

/-- 10_state.md R28, 70_reset_and_hazards.md R260, 00_scope.md R4: for every value of the open parameters, reset leaves
`pc = RESET_PC`, PFR = 0, the machine running (the spec's decisions D10 to D12; log 4, log 5), the memories of the installed
sizes (D14, log 7) and no memory word with a value (log 6); that R0 to R6 and T, C, Z are 0 is the model's choice (log 2,
log 3), and so is that `State.reset` has the default parameters (log 4, log 7). -/
def Obligations.ResetValues : Prop :=
  (∀ p : Config.Params, let s := State.resetOf p
    s.pc = p.resetPc ∧ s.pfr = 0 ∧ s.halted = false ∧ s.progWords = p.progWords ∧ s.dataWords = p.dataWords ∧
    (∀ r, r ≠ .pc → s.readReg r = 0) ∧ s.flagsAre false false false ∧
    (∀ a v, s.readData a ≠ .ok v ∧ s.readProg a ≠ .ok v)) ∧
  State.reset = State.resetOf { progWords := 65536, dataWords := 65536, resetPc := 0 }

/-- Every step keeps the invariant: the installed sizes stay legal, both memories stay canonical, and a halted machine has no
prefix pending (40_cycle_and_prefix.md R96, 48_nop_hlt.md R231; decisions D3, D14; log 7, log 10). -/
def Obligations.StepKeepsInvariant : Prop := ∀ s t : State, s.Inv → step s = .next t → t.Inv

/-- Every act of the host keeps the invariant (decision D13; log 22). -/
def Obligations.HostActKeepsInvariant : Prop := ∀ (e : HostEvent) (s : State), s.Inv → (hostAct e s).Inv

/-! ## Encoding -/

/-- 30_encoding.md R61 to R77: the decoder reads back every well-formed instruction from its word (log 29). -/
def Obligations.DecodeReadsBackEncode : Prop := ∀ i : Instr, i.wf = true → decode (encode i) = .ok i

/-- 30_encoding.md R73, R75: a word that decodes is the word of a well-formed instruction, but for the bits that instruction
ignores (log 30). -/
def Obligations.EncodeReadsBackDecode : Prop :=
  ∀ w i, decode w = .ok i → i.wf = true ∧ w &&& i.usedBits = encode i &&& i.usedBits

/-- 30_encoding.md R65, R75: the don't-care bits and the ignored source fields change nothing (the ignored field of `mov` and
`mvl` is decision D7, log 13). -/
def Obligations.IgnoredBitsAreIgnored : Prop :=
  ∀ w w' i, decode w = .ok i → w' &&& i.usedBits = w &&& i.usedBits → decode w' = .ok i

/-- 30_encoding.md R74, R77: the decoder refuses exactly the words of the eighteen rows of undocumented encodings, and refuses
each by name (refusal as a fault: decision D15, log 17). -/
def Obligations.UndocumentedWordsAreTheTable : Prop :=
  ∀ w, decode w = .error (.undocumented w) ↔ Word.undocumentedRow w = true

/-- 30_encoding.md: words printed in the spec's examples decode to their instructions. -/
def Obligations.WordsOfTheExamples : Prop :=
  decode 0x0000 = .ok .nop ∧ decode 0x0008 = .ok (.pfx 8) ∧ decode 0x0F1F = .ok .hlt ∧
  decode 0x1807 = .ok (.lp .r0 .pc) ∧ decode 0x1860 = .ok (.movMS .r0 .a0 0) ∧ decode 0x1080 = .ok (.cmpML .r0 .a1 0) ∧
  decode 0x6823 = .ok (.subZS .r0 3) ∧ decode 0x5085 = .ok (.cpcZL .r0 5) ∧ decode 0x9302 = .ok (.cmpR .ult .r0 .r2) ∧
  decode 0x9F36 = .ok (.movR .pc .r6) ∧ decode 0x89C8 = .ok (.rl4R .r1 .r1 .r0) ∧ decode 0xF01F = .ok (.andI .r0 31) ∧
  decode 0xFFC5 = .ok (.bfMinus 5) ∧ decode 0xF7C8 = .ok (.jl 8)
end

