-- ==== Sys2Proof/Laws/State.lean ====
section
/-! SUPPORT. One lemma per field of `State` per update, so that no later proof unfolds a record update. -/

namespace Sys2Proof.Machine

/-! ## `retire` -/

@[simp] theorem State.retire_r0 (s : State) :
    (s.retire).r0 = s.r0 := rfl
@[simp] theorem State.retire_r1 (s : State) :
    (s.retire).r1 = s.r1 := rfl
@[simp] theorem State.retire_r2 (s : State) :
    (s.retire).r2 = s.r2 := rfl
@[simp] theorem State.retire_r3 (s : State) :
    (s.retire).r3 = s.r3 := rfl
@[simp] theorem State.retire_r4 (s : State) :
    (s.retire).r4 = s.r4 := rfl
@[simp] theorem State.retire_r5 (s : State) :
    (s.retire).r5 = s.r5 := rfl
@[simp] theorem State.retire_r6 (s : State) :
    (s.retire).r6 = s.r6 := rfl
@[simp] theorem State.retire_pc (s : State) :
    (s.retire).pc = s.nextPc := rfl
@[simp] theorem State.retire_pfr (s : State) :
    (s.retire).pfr = 0 := rfl
@[simp] theorem State.retire_t (s : State) :
    (s.retire).t = s.t := rfl
@[simp] theorem State.retire_c (s : State) :
    (s.retire).c = s.c := rfl
@[simp] theorem State.retire_z (s : State) :
    (s.retire).z = s.z := rfl
@[simp] theorem State.retire_halted (s : State) :
    (s.retire).halted = s.halted := rfl
@[simp] theorem State.retire_prog (s : State) :
    (s.retire).prog = s.prog := rfl
@[simp] theorem State.retire_data (s : State) :
    (s.retire).data = s.data := rfl
@[simp] theorem State.retire_progWords (s : State) :
    (s.retire).progWords = s.progWords := rfl
@[simp] theorem State.retire_dataWords (s : State) :
    (s.retire).dataWords = s.dataWords := rfl
@[simp] theorem State.retire_cycles (s : State) :
    (s.retire).cycles = s.cycles + 1 := rfl
@[simp] theorem State.retire_freeCount (s : State) :
    (s.retire).freeCount = s.freeCount := rfl

/-! ## `setArith` -/

@[simp] theorem State.setArith_r0 (s : State) (r : Word) (b : Bool) :
    (s.setArith r b).r0 = s.r0 := rfl
@[simp] theorem State.setArith_r1 (s : State) (r : Word) (b : Bool) :
    (s.setArith r b).r1 = s.r1 := rfl
@[simp] theorem State.setArith_r2 (s : State) (r : Word) (b : Bool) :
    (s.setArith r b).r2 = s.r2 := rfl
@[simp] theorem State.setArith_r3 (s : State) (r : Word) (b : Bool) :
    (s.setArith r b).r3 = s.r3 := rfl
@[simp] theorem State.setArith_r4 (s : State) (r : Word) (b : Bool) :
    (s.setArith r b).r4 = s.r4 := rfl
@[simp] theorem State.setArith_r5 (s : State) (r : Word) (b : Bool) :
    (s.setArith r b).r5 = s.r5 := rfl
@[simp] theorem State.setArith_r6 (s : State) (r : Word) (b : Bool) :
    (s.setArith r b).r6 = s.r6 := rfl
@[simp] theorem State.setArith_pc (s : State) (r : Word) (b : Bool) :
    (s.setArith r b).pc = s.pc := rfl
@[simp] theorem State.setArith_pfr (s : State) (r : Word) (b : Bool) :
    (s.setArith r b).pfr = s.pfr := rfl
@[simp] theorem State.setArith_t (s : State) (r : Word) (b : Bool) :
    (s.setArith r b).t = (r == 0) := rfl
@[simp] theorem State.setArith_c (s : State) (r : Word) (b : Bool) :
    (s.setArith r b).c = b := rfl
@[simp] theorem State.setArith_z (s : State) (r : Word) (b : Bool) :
    (s.setArith r b).z = (r == 0) := rfl
@[simp] theorem State.setArith_halted (s : State) (r : Word) (b : Bool) :
    (s.setArith r b).halted = s.halted := rfl
@[simp] theorem State.setArith_prog (s : State) (r : Word) (b : Bool) :
    (s.setArith r b).prog = s.prog := rfl
@[simp] theorem State.setArith_data (s : State) (r : Word) (b : Bool) :
    (s.setArith r b).data = s.data := rfl
@[simp] theorem State.setArith_progWords (s : State) (r : Word) (b : Bool) :
    (s.setArith r b).progWords = s.progWords := rfl
@[simp] theorem State.setArith_dataWords (s : State) (r : Word) (b : Bool) :
    (s.setArith r b).dataWords = s.dataWords := rfl
@[simp] theorem State.setArith_cycles (s : State) (r : Word) (b : Bool) :
    (s.setArith r b).cycles = s.cycles := rfl
@[simp] theorem State.setArith_freeCount (s : State) (r : Word) (b : Bool) :
    (s.setArith r b).freeCount = s.freeCount := rfl

/-! ## `setCarryIn` -/

@[simp] theorem State.setCarryIn_r0 (s : State) (r : Word) (b : Bool) :
    (s.setCarryIn r b).r0 = s.r0 := rfl
@[simp] theorem State.setCarryIn_r1 (s : State) (r : Word) (b : Bool) :
    (s.setCarryIn r b).r1 = s.r1 := rfl
@[simp] theorem State.setCarryIn_r2 (s : State) (r : Word) (b : Bool) :
    (s.setCarryIn r b).r2 = s.r2 := rfl
@[simp] theorem State.setCarryIn_r3 (s : State) (r : Word) (b : Bool) :
    (s.setCarryIn r b).r3 = s.r3 := rfl
@[simp] theorem State.setCarryIn_r4 (s : State) (r : Word) (b : Bool) :
    (s.setCarryIn r b).r4 = s.r4 := rfl
@[simp] theorem State.setCarryIn_r5 (s : State) (r : Word) (b : Bool) :
    (s.setCarryIn r b).r5 = s.r5 := rfl
@[simp] theorem State.setCarryIn_r6 (s : State) (r : Word) (b : Bool) :
    (s.setCarryIn r b).r6 = s.r6 := rfl
@[simp] theorem State.setCarryIn_pc (s : State) (r : Word) (b : Bool) :
    (s.setCarryIn r b).pc = s.pc := rfl
@[simp] theorem State.setCarryIn_pfr (s : State) (r : Word) (b : Bool) :
    (s.setCarryIn r b).pfr = s.pfr := rfl
@[simp] theorem State.setCarryIn_t (s : State) (r : Word) (b : Bool) :
    (s.setCarryIn r b).t = (s.z && r == 0) := rfl
@[simp] theorem State.setCarryIn_c (s : State) (r : Word) (b : Bool) :
    (s.setCarryIn r b).c = b := rfl
@[simp] theorem State.setCarryIn_z (s : State) (r : Word) (b : Bool) :
    (s.setCarryIn r b).z = (s.z && r == 0) := rfl
@[simp] theorem State.setCarryIn_halted (s : State) (r : Word) (b : Bool) :
    (s.setCarryIn r b).halted = s.halted := rfl
@[simp] theorem State.setCarryIn_prog (s : State) (r : Word) (b : Bool) :
    (s.setCarryIn r b).prog = s.prog := rfl
@[simp] theorem State.setCarryIn_data (s : State) (r : Word) (b : Bool) :
    (s.setCarryIn r b).data = s.data := rfl
@[simp] theorem State.setCarryIn_progWords (s : State) (r : Word) (b : Bool) :
    (s.setCarryIn r b).progWords = s.progWords := rfl
@[simp] theorem State.setCarryIn_dataWords (s : State) (r : Word) (b : Bool) :
    (s.setCarryIn r b).dataWords = s.dataWords := rfl
@[simp] theorem State.setCarryIn_cycles (s : State) (r : Word) (b : Bool) :
    (s.setCarryIn r b).cycles = s.cycles := rfl
@[simp] theorem State.setCarryIn_freeCount (s : State) (r : Word) (b : Bool) :
    (s.setCarryIn r b).freeCount = s.freeCount := rfl

/-! ## `setShift` -/

@[simp] theorem State.setShift_r0 (s : State) (b : Bool) :
    (s.setShift b).r0 = s.r0 := rfl
@[simp] theorem State.setShift_r1 (s : State) (b : Bool) :
    (s.setShift b).r1 = s.r1 := rfl
@[simp] theorem State.setShift_r2 (s : State) (b : Bool) :
    (s.setShift b).r2 = s.r2 := rfl
@[simp] theorem State.setShift_r3 (s : State) (b : Bool) :
    (s.setShift b).r3 = s.r3 := rfl
@[simp] theorem State.setShift_r4 (s : State) (b : Bool) :
    (s.setShift b).r4 = s.r4 := rfl
@[simp] theorem State.setShift_r5 (s : State) (b : Bool) :
    (s.setShift b).r5 = s.r5 := rfl
@[simp] theorem State.setShift_r6 (s : State) (b : Bool) :
    (s.setShift b).r6 = s.r6 := rfl
@[simp] theorem State.setShift_pc (s : State) (b : Bool) :
    (s.setShift b).pc = s.pc := rfl
@[simp] theorem State.setShift_pfr (s : State) (b : Bool) :
    (s.setShift b).pfr = s.pfr := rfl
@[simp] theorem State.setShift_t (s : State) (b : Bool) :
    (s.setShift b).t = b := rfl
@[simp] theorem State.setShift_c (s : State) (b : Bool) :
    (s.setShift b).c = b := rfl
@[simp] theorem State.setShift_z (s : State) (b : Bool) :
    (s.setShift b).z = Config.shiftZ s.freeCount := rfl
@[simp] theorem State.setShift_halted (s : State) (b : Bool) :
    (s.setShift b).halted = s.halted := rfl
@[simp] theorem State.setShift_prog (s : State) (b : Bool) :
    (s.setShift b).prog = s.prog := rfl
@[simp] theorem State.setShift_data (s : State) (b : Bool) :
    (s.setShift b).data = s.data := rfl
@[simp] theorem State.setShift_progWords (s : State) (b : Bool) :
    (s.setShift b).progWords = s.progWords := rfl
@[simp] theorem State.setShift_dataWords (s : State) (b : Bool) :
    (s.setShift b).dataWords = s.dataWords := rfl
@[simp] theorem State.setShift_cycles (s : State) (b : Bool) :
    (s.setShift b).cycles = s.cycles := rfl
@[simp] theorem State.setShift_freeCount (s : State) (b : Bool) :
    (s.setShift b).freeCount = s.freeCount + 1 := rfl

/-! ## `setCompare` -/

@[simp] theorem State.setCompare_r0 (s : State) (cc : CC) (d : Sum) (b : Bool) :
    (s.setCompare cc d b).r0 = s.r0 := rfl
@[simp] theorem State.setCompare_r1 (s : State) (cc : CC) (d : Sum) (b : Bool) :
    (s.setCompare cc d b).r1 = s.r1 := rfl
@[simp] theorem State.setCompare_r2 (s : State) (cc : CC) (d : Sum) (b : Bool) :
    (s.setCompare cc d b).r2 = s.r2 := rfl
@[simp] theorem State.setCompare_r3 (s : State) (cc : CC) (d : Sum) (b : Bool) :
    (s.setCompare cc d b).r3 = s.r3 := rfl
@[simp] theorem State.setCompare_r4 (s : State) (cc : CC) (d : Sum) (b : Bool) :
    (s.setCompare cc d b).r4 = s.r4 := rfl
@[simp] theorem State.setCompare_r5 (s : State) (cc : CC) (d : Sum) (b : Bool) :
    (s.setCompare cc d b).r5 = s.r5 := rfl
@[simp] theorem State.setCompare_r6 (s : State) (cc : CC) (d : Sum) (b : Bool) :
    (s.setCompare cc d b).r6 = s.r6 := rfl
@[simp] theorem State.setCompare_pc (s : State) (cc : CC) (d : Sum) (b : Bool) :
    (s.setCompare cc d b).pc = s.pc := rfl
@[simp] theorem State.setCompare_pfr (s : State) (cc : CC) (d : Sum) (b : Bool) :
    (s.setCompare cc d b).pfr = s.pfr := rfl
@[simp] theorem State.setCompare_t (s : State) (cc : CC) (d : Sum) (b : Bool) :
    (s.setCompare cc d b).t = cond cc d.cout b d.r.msb d.v := rfl
@[simp] theorem State.setCompare_c (s : State) (cc : CC) (d : Sum) (b : Bool) :
    (s.setCompare cc d b).c = d.cout := rfl
@[simp] theorem State.setCompare_z (s : State) (cc : CC) (d : Sum) (b : Bool) :
    (s.setCompare cc d b).z = b := rfl
@[simp] theorem State.setCompare_halted (s : State) (cc : CC) (d : Sum) (b : Bool) :
    (s.setCompare cc d b).halted = s.halted := rfl
@[simp] theorem State.setCompare_prog (s : State) (cc : CC) (d : Sum) (b : Bool) :
    (s.setCompare cc d b).prog = s.prog := rfl
@[simp] theorem State.setCompare_data (s : State) (cc : CC) (d : Sum) (b : Bool) :
    (s.setCompare cc d b).data = s.data := rfl
@[simp] theorem State.setCompare_progWords (s : State) (cc : CC) (d : Sum) (b : Bool) :
    (s.setCompare cc d b).progWords = s.progWords := rfl
@[simp] theorem State.setCompare_dataWords (s : State) (cc : CC) (d : Sum) (b : Bool) :
    (s.setCompare cc d b).dataWords = s.dataWords := rfl
@[simp] theorem State.setCompare_cycles (s : State) (cc : CC) (d : Sum) (b : Bool) :
    (s.setCompare cc d b).cycles = s.cycles := rfl
@[simp] theorem State.setCompare_freeCount (s : State) (cc : CC) (d : Sum) (b : Bool) :
    (s.setCompare cc d b).freeCount = s.freeCount := rfl

/-! ## `setBitwise` -/

@[simp] theorem State.setBitwise_eq_setArith (s : State) (r : Word) : s.setBitwise r = s.setArith r false := rfl

/-! ## `writeReg` -/

@[simp] theorem State.writeReg_pfr (s : State) (r : Reg) (v : Word) : (s.writeReg r v).pfr = s.pfr := by
  cases r <;> rfl
@[simp] theorem State.writeReg_t (s : State) (r : Reg) (v : Word) : (s.writeReg r v).t = s.t := by
  cases r <;> rfl
@[simp] theorem State.writeReg_c (s : State) (r : Reg) (v : Word) : (s.writeReg r v).c = s.c := by
  cases r <;> rfl
@[simp] theorem State.writeReg_z (s : State) (r : Reg) (v : Word) : (s.writeReg r v).z = s.z := by
  cases r <;> rfl
@[simp] theorem State.writeReg_halted (s : State) (r : Reg) (v : Word) : (s.writeReg r v).halted = s.halted := by
  cases r <;> rfl
@[simp] theorem State.writeReg_prog (s : State) (r : Reg) (v : Word) : (s.writeReg r v).prog = s.prog := by
  cases r <;> rfl
@[simp] theorem State.writeReg_data (s : State) (r : Reg) (v : Word) : (s.writeReg r v).data = s.data := by
  cases r <;> rfl
@[simp] theorem State.writeReg_progWords (s : State) (r : Reg) (v : Word) : (s.writeReg r v).progWords = s.progWords := by
  cases r <;> rfl
@[simp] theorem State.writeReg_dataWords (s : State) (r : Reg) (v : Word) : (s.writeReg r v).dataWords = s.dataWords := by
  cases r <;> rfl
@[simp] theorem State.writeReg_cycles (s : State) (r : Reg) (v : Word) : (s.writeReg r v).cycles = s.cycles := by
  cases r <;> rfl
@[simp] theorem State.writeReg_freeCount (s : State) (r : Reg) (v : Word) : (s.writeReg r v).freeCount = s.freeCount := by
  cases r <;> rfl

/-- Only a write of register 7 moves the program counter (10_state.md R17). -/
theorem State.writeReg_pc (s : State) (r : Reg) (v : Word) :
    (s.writeReg r v).pc = if r = .pc then v else s.pc := by
  cases r <;> rfl

@[simp] theorem State.writeReg_pc_same (s : State) (v : Word) : (s.writeReg .pc v).pc = v := rfl

theorem State.writeReg_pc_ne (s : State) {r : Reg} (h : r ≠ .pc) (v : Word) : (s.writeReg r v).pc = s.pc := by
  rw [State.writeReg_pc, if_neg h]

/-- A general register reads as what was last written to it. -/
theorem State.readReg_writeReg_same (s : State) {r : Reg} (h : r ≠ .pc) (v : Word) :
    (s.writeReg r v).readReg r = v := by
  cases r <;> first | rfl | exact absurd rfl h

/-- A write of one register leaves every other register alone. -/
theorem State.readReg_writeReg_ne (s : State) {q r : Reg} (h : q ≠ r) (v : Word) :
    (s.writeReg r v).readReg q = s.readReg q := by
  cases r <;> cases q <;> first | rfl | exact absurd rfl h

/-! ## Reads do not see the fields they do not name -/

theorem State.readReg_retire (s : State) {q : Reg} (h : q ≠ .pc) : s.retire.readReg q = s.readReg q := by
  cases q <;> first | rfl | exact absurd rfl h

@[simp] theorem State.readReg_setArith (s : State) (q : Reg) (r : Word) (b : Bool) : (s.setArith r b).readReg q = s.readReg q := by
  cases q <;> rfl

@[simp] theorem State.readReg_setCarryIn (s : State) (q : Reg) (r : Word) (b : Bool) : (s.setCarryIn r b).readReg q = s.readReg q := by
  cases q <;> rfl

@[simp] theorem State.readReg_setShift (s : State) (q : Reg) (b : Bool) : (s.setShift b).readReg q = s.readReg q := by
  cases q <;> rfl

@[simp] theorem State.readReg_setCompare (s : State) (q : Reg) (cc : CC) (d : Sum) (b : Bool) : (s.setCompare cc d b).readReg q = s.readReg q := by
  cases q <;> rfl

@[simp] theorem State.readData_retire (s : State) (a : Word) :
    (s.retire).readData a = s.readData a := rfl
@[simp] theorem State.readData_setArith (s : State) (r : Word) (b : Bool) (a : Word) :
    (s.setArith r b).readData a = s.readData a := rfl
@[simp] theorem State.readData_setCarryIn (s : State) (r : Word) (b : Bool) (a : Word) :
    (s.setCarryIn r b).readData a = s.readData a := rfl
@[simp] theorem State.readData_setShift (s : State) (b : Bool) (a : Word) :
    (s.setShift b).readData a = s.readData a := rfl
@[simp] theorem State.readData_setCompare (s : State) (cc : CC) (d : Sum) (b : Bool) (a : Word) :
    (s.setCompare cc d b).readData a = s.readData a := rfl
@[simp] theorem State.readData_writeReg (s : State) (r : Reg) (v : Word) (a : Word) :
    (s.writeReg r v).readData a = s.readData a := by
  cases r <;> rfl

@[simp] theorem State.readProg_retire (s : State) (a : Word) :
    (s.retire).readProg a = s.readProg a := rfl
@[simp] theorem State.readProg_setArith (s : State) (r : Word) (b : Bool) (a : Word) :
    (s.setArith r b).readProg a = s.readProg a := rfl
@[simp] theorem State.readProg_setCarryIn (s : State) (r : Word) (b : Bool) (a : Word) :
    (s.setCarryIn r b).readProg a = s.readProg a := rfl
@[simp] theorem State.readProg_setShift (s : State) (b : Bool) (a : Word) :
    (s.setShift b).readProg a = s.readProg a := rfl
@[simp] theorem State.readProg_setCompare (s : State) (cc : CC) (d : Sum) (b : Bool) (a : Word) :
    (s.setCompare cc d b).readProg a = s.readProg a := rfl
@[simp] theorem State.readProg_writeReg (s : State) (r : Reg) (v : Word) (a : Word) :
    (s.writeReg r v).readProg a = s.readProg a := by
  cases r <;> rfl

end Sys2Proof.Machine
end

