-- ==== Sys2Proof/Laws/Memory.lean ====
section
/-! SUPPORT. The laws of a memory: read after write, and every operation keeps the canonical form. -/

namespace Sys2Proof.Machine

@[simp] theorem Memory.read_nil (a : Nat) : Memory.read [] a = none := rfl

/-- The word just written is what its address reads as. -/
theorem Memory.read_write_same (m : Memory) (a : Nat) (v : Word) : (m.write a v).read a = some v := by
  induction m with
  | nil => simp [Memory.write, Memory.read]
  | cons e m ih =>
    obtain ⟨b, w⟩ := e
    simp only [Memory.write]
    split
    · simp [Memory.read]
    · split
      · simp [Memory.read]
      · rename_i hb
        rw [Memory.read, if_neg (fun h => hb h.symm)]
        exact ih

/-- A write leaves every other address alone. -/
theorem Memory.read_write_ne (m : Memory) {a b : Nat} (h : b ≠ a) (v : Word) :
    (m.write a v).read b = m.read b := by
  induction m with
  | nil => simp [Memory.write, Memory.read, Ne.symm h, Memory.unlisted]
  | cons e m ih =>
    obtain ⟨c, w⟩ := e
    simp only [Memory.write]
    split
    · rw [Memory.read, if_neg (Ne.symm h)]
    · split
      · rename_i hc
        subst hc
        simp [Memory.read, Ne.symm h]
      · simp only [Memory.read]
        split
        · rfl
        · exact ih

/-- The addresses a write lists are the old ones and the one written. -/
theorem Memory.mem_write {m : Memory} {a : Nat} {v : Word} {e : Nat × Word} (h : e ∈ m.write a v) :
    e = (a, v) ∨ e ∈ m := by
  induction m with
  | nil => exact .inl (by simpa [Memory.write] using h)
  | cons x m ih =>
    obtain ⟨b, w⟩ := x
    simp only [Memory.write] at h
    split at h
    · simpa using h
    · split at h
      · rcases List.mem_cons.mp h with h | h
        · exact .inl h
        · exact .inr (List.mem_cons_of_mem _ h)
      · rcases List.mem_cons.mp h with h | h
        · exact .inr (h ▸ List.mem_cons_self)
        · exact (ih h).imp_right (List.mem_cons_of_mem _)

/-- A write keeps the addresses strictly rising. -/
theorem Memory.write_rising {m : Memory} (h : (m.map Prod.fst).Pairwise (· < ·)) (a : Nat) (v : Word) :
    ((m.write a v).map Prod.fst).Pairwise (· < ·) := by
  induction m with
  | nil => simp [Memory.write]
  | cons x m ih =>
    obtain ⟨b, w⟩ := x
    simp only [List.map_cons, List.pairwise_cons, List.mem_map] at h
    simp only [Memory.write]
    split
    · rename_i hab
      simp only [List.map_cons, List.pairwise_cons, List.mem_cons, List.mem_map]
      refine ⟨?_, fun c hc => h.1 c hc, h.2⟩
      rintro c (rfl | hc)
      · exact hab
      · exact Nat.lt_trans hab (h.1 c hc)
    · split
      · rename_i hab
        subst hab
        simpa [List.pairwise_cons] using h
      · rename_i h1 h2
        simp only [List.map_cons, List.pairwise_cons, List.mem_map]
        refine ⟨?_, ih h.2⟩
        rintro c ⟨e, he, rfl⟩
        rcases Memory.mem_write he with rfl | he
        · dsimp only
          omega
        · exact h.1 _ ⟨e, he, rfl⟩

/-- The empty memory is canonical. -/
theorem Memory.wf_nil (words : Nat) : Memory.wf words [] := by
  simp [Memory.wf]

/-- A write inside the installed memory keeps the canonical form. -/
theorem Memory.wf_write {words : Nat} {m : Memory} (h : Memory.wf words m) {a : Nat} (ha : a < words) (v : Word) :
    Memory.wf words (m.write a v) := by
  refine ⟨Memory.write_rising h.1 a v, fun e he => ?_, fun e he => by simp [Memory.unlisted]⟩
  rcases Memory.mem_write he with rfl | he
  · exact ha
  · exact h.2.1 e he

/-! ## Reads and writes of the two spaces -/

/-- A read answers a word only at an installed address that has been written. -/
theorem readWord_ok {sp : Space} {n : Nat} {m : Memory} {a v : Word} :
    readWord sp n m a = .ok v ↔ a.toNat < n ∧ m.read a.toNat = some v := by
  unfold readWord
  split
  · rename_i h
    cases hm : m.read a.toNat <;> simp [h]
  · rename_i h
    simp [h]

/-- A read stops at an installed address that nothing has written (60_exceptions.md R241). -/
theorem readWord_unwritten {sp : Space} {n : Nat} {m : Memory} {a : Word} (h : a.toNat < n)
    (hm : m.read a.toNat = none) : readWord sp n m a = .error (.uninitialised sp a) := by
  simp [readWord, h, hm]

/-- A read stops at an address that is not installed, whatever the memory holds (20_memory.md R45). -/
theorem readWord_uninstalled {sp : Space} {n : Nat} {m : Memory} {a : Word} (h : n ≤ a.toNat) :
    readWord sp n m a = .error (.outOfRange sp a) := by
  simp [readWord, Nat.not_lt.mpr h]

/-- A write of data memory goes on exactly at an installed address. -/
theorem State.writeData_ok {s t : State} {a v : Word} :
    s.writeData a v = .ok t ↔ a.toNat < s.dataWords ∧ t = { s with data := s.data.write a.toNat v } := by
  unfold State.writeData
  split
  · rename_i h
    simp [h, eq_comm]
  · rename_i h
    simp [h]

/-- A data word just written reads back. -/
theorem State.readData_write_same {s t : State} {a v : Word} (h : s.writeData a v = .ok t) :
    t.readData a = .ok v := by
  obtain ⟨ha, rfl⟩ := State.writeData_ok.mp h
  exact readWord_ok.mpr ⟨ha, Memory.read_write_same _ _ _⟩

/-- A data write leaves every other data word alone. -/
theorem State.readData_write_ne {s t : State} {a b v : Word} (h : s.writeData a v = .ok t) (hb : b ≠ a) :
    t.readData b = s.readData b := by
  obtain ⟨-, rfl⟩ := State.writeData_ok.mp h
  have hn : b.toNat ≠ a.toNat := fun e => hb (BitVec.eq_of_toNat_eq e)
  simp only [State.readData, readWord, Memory.read_write_ne _ hn]

/-- The host's writes leave the other memory and the installed sizes alone. -/
@[simp] theorem State.pokeProg_data (s : State) (a v : Word) : (s.pokeProg a v).data = s.data := by
  unfold State.pokeProg; split <;> rfl
@[simp] theorem State.pokeProg_progWords (s : State) (a v : Word) : (s.pokeProg a v).progWords = s.progWords := by
  unfold State.pokeProg; split <;> rfl
@[simp] theorem State.pokeProg_dataWords (s : State) (a v : Word) : (s.pokeProg a v).dataWords = s.dataWords := by
  unfold State.pokeProg; split <;> rfl
@[simp] theorem State.pokeData_prog (s : State) (a v : Word) : (s.pokeData a v).prog = s.prog := by
  unfold State.pokeData; split <;> rfl
@[simp] theorem State.pokeData_progWords (s : State) (a v : Word) : (s.pokeData a v).progWords = s.progWords := by
  unfold State.pokeData; split <;> rfl
@[simp] theorem State.pokeData_dataWords (s : State) (a v : Word) : (s.pokeData a v).dataWords = s.dataWords := by
  unfold State.pokeData; split <;> rfl

/-- The host's writes keep both memories canonical. -/
theorem State.pokeProg_wf {s : State} (h : Memory.wf s.progWords s.prog) (a v : Word) :
    Memory.wf s.progWords (s.pokeProg a v).prog := by
  unfold State.pokeProg
  split
  · rename_i ha
    exact Memory.wf_write h ha v
  · exact h

theorem State.pokeData_wf {s : State} (h : Memory.wf s.dataWords s.data) (a v : Word) :
    Memory.wf s.dataWords (s.pokeData a v).data := by
  unfold State.pokeData
  split
  · rename_i ha
    exact Memory.wf_write h ha v
  · exact h

/-- Loading a program keeps program memory canonical. -/
theorem State.loadProg_wf {s : State} (h : Memory.wf s.progWords s.prog) (a : Word) (ws : List Word) :
    Memory.wf s.progWords (s.loadProg a ws).prog := by
  induction ws generalizing s a with
  | nil => exact h
  | cons w ws ih => simpa [State.loadProg] using ih (s := s.pokeProg a w) (by simpa using State.pokeProg_wf h a w) (a + 1)

/-- Loading data keeps data memory canonical. -/
theorem State.loadData_wf {s : State} (h : Memory.wf s.dataWords s.data) (a : Word) (ws : List Word) :
    Memory.wf s.dataWords (s.loadData a ws).data := by
  induction ws generalizing s a with
  | nil => exact h
  | cons w ws ih => simpa [State.loadData] using ih (s := s.pokeData a w) (by simpa using State.pokeData_wf h a w) (a + 1)

end Sys2Proof.Machine
end

