-- ==== Sys2Proof/Laws/Ops.lean ====
section
/-! SUPPORT. What each shared operation can do, said once: if it answers `next t`, then this is how. -/

namespace Sys2Proof.Machine

/-- A read that goes on. -/
theorem withVal_next {α : Type} {x : Except Fault α} {k : α → Answer} {t : State} :
    withVal x k = .next t ↔ ∃ a, x = .ok a ∧ k a = .next t := by
  cases x <;> simp [withVal]

/-- A read that stops, or goes on and stops later. -/
theorem withVal_fault {α : Type} {x : Except Fault α} {k : α → Answer} {f : Fault} :
    withVal x k = .fault f ↔ x = .error f ∨ ∃ a, x = .ok a ∧ k a = .fault f := by
  cases x <;> simp [withVal]

@[simp] theorem withVal_ok {α : Type} (a : α) (k : α → Answer) : withVal (.ok a) k = k a := rfl

/-- `finish` into a register always goes on. -/
theorem finish_reg (s : State) (r : Reg) (v : Word) : finish s (.reg r) v = .next (s.retire.writeReg r v) := rfl

/-- `finish` into memory goes on exactly at an installed address. -/
theorem finish_mem {s t : State} {ea v : Word} :
    finish s (.mem ea) v = .next t ↔
      ea.toNat < s.dataWords ∧ t = { s.retire with data := s.data.write ea.toNat v } := by
  simp only [finish, withVal_next, State.writeData_ok]
  constructor
  · rintro ⟨a, ⟨h, rfl⟩, h2⟩
    cases h2
    exact ⟨h, rfl⟩
  · rintro ⟨h, rfl⟩
    exact ⟨_, ⟨h, rfl⟩, rfl⟩

/-- `finish` into memory stops at an address that is not installed. -/
theorem finish_uninstalled {s : State} {ea v : Word} (h : s.dataWords ≤ ea.toNat) :
    finish s (.mem ea) v = .fault (.outOfRange .data ea) := by
  simp [finish, withVal, State.writeData, Nat.not_lt.mpr h]

/-- Everything `finish` can do. -/
theorem finish_next {s t : State} {d : Dest} {v : Word} (h : finish s d v = .next t) :
    (∃ r, d = .reg r ∧ t = s.retire.writeReg r v) ∨
    (∃ ea, d = .mem ea ∧ ea.toNat < s.dataWords ∧
      t = { s.retire with data := s.data.write ea.toNat v }) := by
  cases d with
  | reg r => exact .inl ⟨r, rfl, by cases h; rfl⟩
  | mem ea =>
    obtain ⟨h1, h2⟩ := finish_mem.mp h
    exact .inr ⟨ea, rfl, h1, h2⟩

/-- Both sources were read. -/
theorem Form.withSources_next {f : Form} {s t : State} {k : Word → Word → Answer} :
    f.withSources s k = .next t ↔ ∃ a b, f.src1 s = .ok a ∧ f.src2 s = .ok b ∧ k a b = .next t := by
  simp only [Form.withSources, withVal_next]
  constructor
  · rintro ⟨a, h1, b, h2, h3⟩
    exact ⟨a, b, h1, h2, h3⟩
  · rintro ⟨a, b, h1, h2, h3⟩
    exact ⟨a, h1, b, h2, h3⟩

/-- Minuend and subtrahend were read. -/
theorem Form.withSub_next {f : Form} {s t : State} {k : Word → Word → Answer} :
    f.withSub s k = .next t ↔
      ∃ a b, f.src1 s = .ok a ∧ f.src2 s = .ok b ∧ k (f.subOrder a b).1 (f.subOrder a b).2 = .next t :=
  Form.withSources_next

/-- Outside the store forms `sub` is `S1 - S2` (41_arithmetic.md R119). -/
@[simp] theorem Form.subOrder_imm (ri : Reg) (k : Imm5) (a b : Word) : (Form.imm ri k).subOrder a b = (a, b) := rfl
@[simp] theorem Form.subOrder_regs (ri rj rk : Reg) (a b : Word) : (Form.regs ri rj rk).subOrder a b = (a, b) := rfl
@[simp] theorem Form.subOrder_load (ri : Reg) (x : Addr) (a b : Word) : (Form.load ri x).subOrder a b = (a, b) := rfl

/-- In the store forms it is the register minus the memory word, `S2 - S1` (41_arithmetic.md R119, log 12). -/
@[simp] theorem Form.subOrder_store (ri : Reg) (x : Addr) (a b : Word) : (Form.store ri x).subOrder a b = (b, a) := rfl

/-- The step of a running machine is the meaning of the instruction it fetches. -/
theorem step_next {s t : State} (h : step s = .next t) :
    (s.halted = true ∧ t = s) ∨ (s.halted = false ∧ ∃ i, s.fetch = .ok i ∧ exec i s = .next t) := by
  unfold step at h
  split at h
  · rename_i hh
    cases h
    exact .inl ⟨hh, rfl⟩
  · rename_i hh
    obtain ⟨i, h1, h2⟩ := withVal_next.mp h
    exact .inr ⟨by simpa using hh, i, h1, h2⟩

end Sys2Proof.Machine
end

