-- ==== Sys2Proof/Laws/Alu.lean ====
section
/-! SUPPORT. What the ALU functions answer, in terms of the integers their operands stand for. -/

namespace Sys2Proof.Machine

/-! ## Binary addition and subtraction (41_arithmetic.md R110) -/

/-- The sum is the exact sum modulo 65536. -/
theorem add16_r_toNat (a b : Word) (cin : Bool) :
    (add16 a b cin).r.toNat = (a.toNat + b.toNat + cin.toNat) % 65536 := by
  simp [add16, BitVec.toNat_ofNat]

/-- The carry out says that the exact sum needs a seventeenth bit. -/
theorem add16_cout (a b : Word) (cin : Bool) :
    (add16 a b cin).cout = decide (65536 ≤ a.toNat + b.toNat + cin.toNat) := rfl

/-- Without a carry in the sum is the word sum. -/
theorem add16_false_r (a b : Word) : (add16 a b false).r = a + b := by
  apply BitVec.eq_of_toNat_eq
  rw [add16_r_toNat, BitVec.toNat_add]
  simp

/-- The difference is the exact difference modulo 65536. -/
theorem sub16_r_toNat (p q : Word) (cin : Bool) :
    (sub16 p q cin).r.toNat = (p.toNat + 65535 - q.toNat + cin.toNat) % 65536 := by
  have hq := q.isLt
  rw [sub16, add16_r_toNat, BitVec.toNat_not]
  congr 1
  omega

/-- Without a borrow in the difference is the word difference. -/
theorem sub16_true_r (p q : Word) : (sub16 p q true).r = p - q := by
  apply BitVec.eq_of_toNat_eq
  have hq := q.isLt
  rw [sub16_r_toNat, BitVec.toNat_sub]
  simp only [Bool.toNat_true]
  congr 1
  omega

/-- The carry out is the complement of the borrow. -/
theorem sub16_cout (p q : Word) (cin : Bool) :
    (sub16 p q cin).cout = decide (q.toNat + (1 - cin.toNat) ≤ p.toNat) := by
  have hq := q.isLt
  have hc : cin.toNat ≤ 1 := Bool.toNat_le cin
  rw [sub16, add16_cout, BitVec.toNat_not]
  apply decide_eq_decide.mpr
  omega

/-- Sign and overflow agree exactly when the minuend is at least subtrahend plus borrow as signed numbers
(44_compare.md R161). -/
theorem sub16_sign_eq_overflow (p q : Word) (cin : Bool) :
    ((sub16 p q cin).r.msb == (sub16 p q cin).v) =
      decide (q.toInt + (1 - (cin.toNat : Int)) ≤ p.toInt) := by
  have hp := p.isLt
  have hq := q.isLt
  have hr := sub16_r_toNat p q cin
  have hc : cin.toNat ≤ 1 := Bool.toNat_le cin
  have hv : (sub16 p q cin).v = ((p.msb == (~~~q).msb) && ((sub16 p q cin).r.msb != p.msb)) := rfl
  rw [hv]
  have hn : (~~~q).msb = !q.msb := by simp [BitVec.msb_not]
  rw [hn]
  have mp : p.msb = decide (32768 ≤ p.toNat) := BitVec.msb_eq_decide p
  have mq : q.msb = decide (32768 ≤ q.toNat) := BitVec.msb_eq_decide q
  have mr : (sub16 p q cin).r.msb = decide (32768 ≤ (sub16 p q cin).r.toNat) := BitVec.msb_eq_decide _
  rw [mp, mq, mr, hr, BitVec.toInt_eq_toNat_cond, BitVec.toInt_eq_toNat_cond]
  by_cases h1 : 32768 ≤ p.toNat <;> by_cases h2 : 32768 ≤ q.toNat <;>
    by_cases h3 : 32768 ≤ (p.toNat + 65535 - q.toNat + cin.toNat) % 65536 <;>
    simp only [h1, h2, h3, decide_true, decide_false] <;> symm <;>
    (first | (apply decide_eq_true; split <;> split <;> omega) | (apply decide_eq_false; split <;> split <;> omega))

/-! ## BCD (41_arithmetic.md R121) -/

/-- The digits of a word built from four decimal digits. -/
theorem bcdDigit_of_digits {d3 d2 d1 d0 : Nat} (h3 : d3 ≤ 9) (h2 : d2 ≤ 9) (h1 : d1 ≤ 9) (h0 : d0 ≤ 9) {a : Word}
    (h : a.toNat = d3 * 4096 + d2 * 256 + d1 * 16 + d0) :
    bcdDigit a 3 = d3 ∧ bcdDigit a 2 = d2 ∧ bcdDigit a 1 = d1 ∧ bcdDigit a 0 = d0 := by
  simp only [bcdDigit, h, show 16 ^ 3 = 4096 from rfl, show 16 ^ 2 = 256 from rfl, show 16 ^ 1 = 16 from rfl,
    show 16 ^ 0 = 1 from rfl]
  omega

/-- The word of a number below 10000 is valid and stands for that number. -/
theorem bcdWord_spec {n : Nat} (h : n < 10000) : bcdValid (bcdWord n) = true ∧ bcdDec (bcdWord n) = n := by
  have ht : (bcdWord n).toNat = n / 1000 % 10 * 4096 + n / 100 % 10 * 256 + n / 10 % 10 * 16 + n % 10 := by
    rw [bcdWord, BitVec.toNat_ofNat]
    apply Nat.mod_eq_of_lt
    omega
  obtain ⟨d3, d2, d1, d0⟩ :=
    bcdDigit_of_digits (by omega) (by omega) (by omega) (by omega) ht
  refine ⟨?_, ?_⟩
  · simp only [bcdValid, d0, d1, d2, d3, Bool.and_eq_true, decide_eq_true_eq]
    omega
  · have e2 : n / 100 = n / 10 / 10 := (Nat.div_div_eq_div_mul n 10 10).symm
    have e3 : n / 1000 = n / 10 / 10 / 10 := by rw [Nat.div_div_eq_div_mul, Nat.div_div_eq_div_mul]
    rw [bcdDec, d0, d1, d2, d3, e2, e3]
    omega

/-- A valid word stands for a number below 10000. -/
theorem bcdDec_lt {a : Word} (h : bcdValid a = true) : bcdDec a < 10000 := by
  simp only [bcdValid, Bool.and_eq_true, decide_eq_true_eq] at h
  rw [bcdDec]
  omega

/-- A BCD operation on valid operands is decimal arithmetic; on any others it is the free value. -/
theorem bcdOp_valid {a b : Word} (ha : bcdValid a = true) (hb : bcdValid b = true) (op : BcdOp) (cin : Bool) :
    bcdOp op a b cin = if op = .dsc then bcdSub a b cin else bcdAdd a b cin := by
  unfold bcdOp
  rw [ha, hb]
  cases op <;> simp

theorem bcdOp_invalid {a b : Word} (h : (bcdValid a && bcdValid b) = false) (op : BcdOp) (cin : Bool) :
    bcdOp op a b cin = Config.bcdInvalid op a b cin := by
  unfold bcdOp
  rw [h]
  simp

/-! ## Shifts and rotates (43_shift_rotate.md R140) -/

/-- Without incoming bits a right shift divides. -/
theorem funnelRight_zero_toNat (n : Nat) (a : Word) : (funnelRight n a 0).r.toNat = a.toNat / 2 ^ n := by
  simp [funnelRight, Nat.shiftRight_eq_div_pow]

/-- Without incoming bits a left shift multiplies modulo 65536. -/
theorem funnelLeft_zero_toNat (n : Nat) (a : Word) : (funnelLeft n a 0).r.toNat = a.toNat * 2 ^ n % 65536 := by
  simp [funnelLeft, Nat.shiftLeft_eq]

/-- The bits a right shift drops are not all zero. -/
theorem funnelRight_out (n : Nat) (a b : Word) : (funnelRight n a b).out = decide (a.toNat % 2 ^ n ≠ 0) := by
  have e : (a.extractLsb' 0 n != 0) = decide ((a.extractLsb' 0 n).toNat ≠ 0) := by
    by_cases hz : a.extractLsb' 0 n = 0
    · simp [hz]
    · have hn : (a.extractLsb' 0 n).toNat ≠ 0 := fun hh => hz (BitVec.eq_of_toNat_eq (by simpa using hh))
      simp only [bne, beq_eq_false_iff_ne.mpr hz, Bool.not_false, ne_eq, hn, not_false_eq_true, decide_true]
  rw [funnelRight, e, BitVec.extractLsb'_toNat, Nat.shiftRight_zero]

/-- The immediate of the executing instruction (40_cycle_and_prefix.md R94). -/
theorem State.imm16_toNat (s : State) (k : Imm5) : (s.imm16 k).toNat = s.pfr.toNat * 32 + k.toNat := by
  have hp := s.pfr.isLt
  have hk := k.isLt
  have e1 : (s.pfr.setWidth 16 <<< 5).toNat = s.pfr.toNat * 32 := by
    rw [BitVec.toNat_shiftLeft, BitVec.toNat_setWidth, Nat.mod_eq_of_lt (by omega), Nat.shiftLeft_eq]
    omega
  have e2 : (k.setWidth 16).toNat = k.toNat := by
    rw [BitVec.toNat_setWidth]
    omega
  rw [State.imm16, BitVec.toNat_or, e1, e2]
  have h := Nat.two_pow_add_eq_or_of_lt (i := 5) (b := k.toNat) (by omega) s.pfr.toNat
  rw [Nat.mul_comm s.pfr.toNat 32]
  exact h.symm

end Sys2Proof.Machine
end

