-- ==== Sys2Proof/Laws/Meanings.lean ====
section
/-! SUPPORT. What each shared meaning can do, said once: if it answers `next t`, then its sources were read and the
result went to its destination with these flags. -/

namespace Sys2Proof.Machine

/-- `add` (41_arithmetic.md R111). -/
theorem aluAdd_next {f : Form} {s t : State} :
    aluAdd f s = .next t ↔ ∃ s1 s2, f.src1 s = .ok s1 ∧ f.src2 s = .ok s2 ∧
      finish (s.setArith (add16 s1 s2 false).r (add16 s1 s2 false).cout) (f.dest s) (add16 s1 s2 false).r = .next t :=
  Form.withSources_next

/-- `dad` (41_arithmetic.md R112). -/
theorem aluDad_next {f : Form} {s t : State} :
    aluDad f s = .next t ↔ ∃ s1 s2, f.src1 s = .ok s1 ∧ f.src2 s = .ok s2 ∧
      finish (s.setArith (bcdOp .dad s1 s2 false).1 (bcdOp .dad s1 s2 false).2) (f.dest s) (bcdOp .dad s1 s2 false).1 = .next t :=
  Form.withSources_next

/-- `adc` (41_arithmetic.md R113). -/
theorem aluAdc_next {f : Form} {s t : State} :
    aluAdc f s = .next t ↔ ∃ s1 s2, f.src1 s = .ok s1 ∧ f.src2 s = .ok s2 ∧
      finish (s.setCarryIn (add16 s1 s2 s.c).r (add16 s1 s2 s.c).cout) (f.dest s) (add16 s1 s2 s.c).r = .next t :=
  Form.withSources_next

/-- `dac` (41_arithmetic.md R114). -/
theorem aluDac_next {f : Form} {s t : State} :
    aluDac f s = .next t ↔ ∃ s1 s2, f.src1 s = .ok s1 ∧ f.src2 s = .ok s2 ∧
      finish (s.setCarryIn (bcdOp .dac s1 s2 s.c).1 (bcdOp .dac s1 s2 s.c).2) (f.dest s) (bcdOp .dac s1 s2 s.c).1 = .next t :=
  Form.withSources_next

/-- `sub` (41_arithmetic.md R115). -/
theorem aluSub_next {f : Form} {s t : State} :
    aluSub f s = .next t ↔ ∃ s1 s2, f.src1 s = .ok s1 ∧ f.src2 s = .ok s2 ∧
      finish (s.setArith (sub16 (f.subOrder s1 s2).1 (f.subOrder s1 s2).2 true).r (sub16 (f.subOrder s1 s2).1 (f.subOrder s1 s2).2 true).cout) (f.dest s) (sub16 (f.subOrder s1 s2).1 (f.subOrder s1 s2).2 true).r = .next t :=
  Form.withSub_next

/-- `rsb` (41_arithmetic.md R116). -/
theorem aluRsb_next {f : Form} {s t : State} :
    aluRsb f s = .next t ↔ ∃ s1 s2, f.src1 s = .ok s1 ∧ f.src2 s = .ok s2 ∧
      finish (s.setArith (sub16 (f.subOrder s1 s2).2 (f.subOrder s1 s2).1 true).r (sub16 (f.subOrder s1 s2).2 (f.subOrder s1 s2).1 true).cout) (f.dest s) (sub16 (f.subOrder s1 s2).2 (f.subOrder s1 s2).1 true).r = .next t :=
  Form.withSub_next

/-- `sbc` (41_arithmetic.md R117). -/
theorem aluSbc_next {f : Form} {s t : State} :
    aluSbc f s = .next t ↔ ∃ s1 s2, f.src1 s = .ok s1 ∧ f.src2 s = .ok s2 ∧
      finish (s.setCarryIn (sub16 (f.subOrder s1 s2).1 (f.subOrder s1 s2).2 s.c).r (sub16 (f.subOrder s1 s2).1 (f.subOrder s1 s2).2 s.c).cout) (f.dest s) (sub16 (f.subOrder s1 s2).1 (f.subOrder s1 s2).2 s.c).r = .next t :=
  Form.withSub_next

/-- `dsc` (41_arithmetic.md R118). -/
theorem aluDsc_next {f : Form} {s t : State} :
    aluDsc f s = .next t ↔ ∃ s1 s2, f.src1 s = .ok s1 ∧ f.src2 s = .ok s2 ∧
      finish (s.setCarryIn (bcdOp .dsc (f.subOrder s1 s2).1 (f.subOrder s1 s2).2 s.c).1 (bcdOp .dsc (f.subOrder s1 s2).1 (f.subOrder s1 s2).2 s.c).2) (f.dest s) (bcdOp .dsc (f.subOrder s1 s2).1 (f.subOrder s1 s2).2 s.c).1 = .next t :=
  Form.withSub_next

/-- `and` (42_bitwise.md R130). -/
theorem aluAnd_next {f : Form} {s t : State} :
    aluAnd f s = .next t ↔ ∃ s1 s2, f.src1 s = .ok s1 ∧ f.src2 s = .ok s2 ∧
      finish (s.setBitwise (s1 &&& s2)) (f.dest s) (s1 &&& s2) = .next t :=
  Form.withSources_next

/-- `or` (42_bitwise.md R131). -/
theorem aluOr_next {f : Form} {s t : State} :
    aluOr f s = .next t ↔ ∃ s1 s2, f.src1 s = .ok s1 ∧ f.src2 s = .ok s2 ∧
      finish (s.setBitwise (s1 ||| s2)) (f.dest s) (s1 ||| s2) = .next t :=
  Form.withSources_next

/-- `xor` (42_bitwise.md R132). -/
theorem aluXor_next {f : Form} {s t : State} :
    aluXor f s = .next t ↔ ∃ s1 s2, f.src1 s = .ok s1 ∧ f.src2 s = .ok s2 ∧
      finish (s.setBitwise (s1 ^^^ s2)) (f.dest s) (s1 ^^^ s2) = .next t :=
  Form.withSources_next

/-- `mov` (45_move.md R180). -/
theorem moveMov_next {f : Form} {s t : State} :
    moveMov f s = .next t ↔ ∃ v, f.src2 s = .ok v ∧ finish s (f.dest s) v = .next t :=
  withVal_next

/-- `set` (45_move.md R182). -/
theorem moveSet_next {f : Form} {s t : State} :
    moveSet f s = .next t ↔ ∃ v, (if s.t then f.src2 s else .ok 0) = .ok v ∧ finish s (f.dest s) v = .next t :=
  withVal_next

/-- `sef` (45_move.md R183). -/
theorem moveSef_next {f : Form} {s t : State} :
    moveSef f s = .next t ↔ ∃ v, (if s.t then .ok 0 else f.src2 s) = .ok v ∧ finish s (f.dest s) v = .next t :=
  withVal_next

/-- `sel` (45_move.md R184). -/
theorem moveSel_next {f : Form} {s t : State} :
    moveSel f s = .next t ↔
      ∃ v, (if s.t then f.src2 s else f.src1 s) = .ok v ∧ finish s (f.dest s) v = .next t :=
  withVal_next

/-- `mvl` (47_branch_link.md R218). -/
theorem moveLink_next {f : Form} {s t : State} :
    moveLink f s = .next t ↔
      ∃ v, f.src2 { s with r6 := s.nextPc } = .ok v ∧
        finish { s with r6 := s.nextPc } (f.dest { s with r6 := s.nextPc }) v = .next t :=
  withVal_next

/-- `adt` (46_conditional_arithmetic.md R200, R204). -/
theorem condAdt_next {f : Form} {s t : State} :
    condAdt f s = .next t ↔
      (s.t = false ∧ t = s.retire) ∨
      (s.t = true ∧ ∃ s1 s2, f.src1 s = .ok s1 ∧ f.src2 s = .ok s2 ∧
        finish s (f.dest s) (add16 s1 s2 false).r = .next t) := by
  unfold condAdt
  cases hT : s.t
  · simp [finishNone, eq_comm (a := t)]
  · simp [Form.withSources_next]

/-- `adf` (46_conditional_arithmetic.md R201, R204). -/
theorem condAdf_next {f : Form} {s t : State} :
    condAdf f s = .next t ↔
      (s.t = true ∧ t = s.retire) ∨
      (s.t = false ∧ ∃ s1 s2, f.src1 s = .ok s1 ∧ f.src2 s = .ok s2 ∧
        finish s (f.dest s) (add16 s1 s2 false).r = .next t) := by
  unfold condAdf
  cases hT : s.t
  · simp [Form.withSources_next]
  · simp [finishNone, eq_comm (a := t)]

/-- `sbt` (46_conditional_arithmetic.md R202, R204). -/
theorem condSbt_next {f : Form} {s t : State} :
    condSbt f s = .next t ↔
      (s.t = false ∧ t = s.retire) ∨
      (s.t = true ∧ ∃ s1 s2, f.src1 s = .ok s1 ∧ f.src2 s = .ok s2 ∧
        finish s (f.dest s) (sub16 (f.subOrder s1 s2).1 (f.subOrder s1 s2).2 true).r = .next t) := by
  unfold condSbt
  cases hT : s.t
  · simp [finishNone, eq_comm (a := t)]
  · simp [Form.withSub_next]

/-- `sbf` (46_conditional_arithmetic.md R203, R204). -/
theorem condSbf_next {f : Form} {s t : State} :
    condSbf f s = .next t ↔
      (s.t = true ∧ t = s.retire) ∨
      (s.t = false ∧ ∃ s1 s2, f.src1 s = .ok s1 ∧ f.src2 s = .ok s2 ∧
        finish s (f.dest s) (sub16 (f.subOrder s1 s2).1 (f.subOrder s1 s2).2 true).r = .next t) := by
  unfold condSbf
  cases hT : s.t
  · simp [Form.withSub_next]
  · simp [finishNone, eq_comm (a := t)]

end Sys2Proof.Machine
end

