-- ==== Sys2Proof/Laws/Exec.lean ====
section
/-! SUPPORT. What an instruction can do, said once over all of them (`exec_shape`): the flags, the link register and the
model's counters are prepared, then one destination at most is written. -/

namespace Sys2Proof.Machine

/-- `s` with other flags, counters and R6. -/
def State.prepared (s : State) (T C Z : Bool) (fc cy : Nat) (l : Word) : State :=
  { s with t := T, c := C, z := Z, freeCount := fc, cycles := cy, r6 := l }

/-- The destination register of a form. -/
def Form.toReg : Form → Option Reg
  | .imm ri _ => some ri
  | .regs ri _ _ => some ri
  | .load ri _ => some ri
  | .store _ _ => none

/-- The stored address of a form. -/
def Form.toAddr : Form → Option Addr
  | .store _ a => some a
  | _ => none

/-- The cycles an instruction takes beyond the first: one for `lp` (70_reset_and_hazards.md R266). -/
def extraCycles : Instr → Nat
  | .lp _ _ => 1
  | _ => 0

/-- Everything an instruction other than `pfx` and `hlt` can have done. -/
def Shape (i : Instr) (s t : State) : Prop :=
  ∃ T C Z fc, (i.keepsFlags = true → T = s.t ∧ C = s.c ∧ Z = s.z) ∧
    ∃ p, p = s.prepared T C Z fc (s.cycles + extraCycles i) (if i.writesLink then s.nextPc else s.r6) ∧
      ((∃ r v, i.destReg = some r ∧ t = p.retire.writeReg r v) ∨
        (∃ a v, i.storeAddr = some a ∧ (s.ea a).toNat < s.dataWords ∧
          t = { p.retire with data := s.data.write (s.ea a).toNat v }) ∨
        (i.writesLink = false ∧ t = p.retire))

/-- An instruction that ends in `finish` has the shape. -/
theorem shape_of_finish {i : Instr} {f : Form} {s t : State} {T C Z : Bool} {fc cy : Nat} {l v : Word}
    (hr : i.destReg = f.toReg) (ha : i.storeAddr = f.toAddr)
    (hk : i.keepsFlags = true → T = s.t ∧ C = s.c ∧ Z = s.z) (hc : cy = s.cycles + extraCycles i)
    (hl : l = if i.writesLink then s.nextPc else s.r6)
    (h : finish (s.prepared T C Z fc cy l) (f.dest s) v = .next t) : Shape i s t := by
  subst hc hl
  refine ⟨T, C, Z, fc, hk, _, rfl, ?_⟩
  rcases finish_next h with ⟨r, hd, rfl⟩ | ⟨ea, hd, hea, rfl⟩
  · refine .inl ⟨r, v, ?_, rfl⟩
    cases f <;> simp_all [Form.dest, Form.toReg]
  · cases f with
    | store ri a =>
      cases hd
      exact .inr (.inl ⟨a, v, ha, hea, rfl⟩)
    | _ => cases hd

/-- An instruction that ends in `retire` has the shape. -/
theorem shape_of_retire {i : Instr} {s t : State} {T C Z : Bool} {fc cy : Nat}
    (hk : i.keepsFlags = true → T = s.t ∧ C = s.c ∧ Z = s.z) (hl : i.writesLink = false)
    (hc : cy = s.cycles + extraCycles i) (h : t = (s.prepared T C Z fc cy s.r6).retire) : Shape i s t :=
  ⟨T, C, Z, fc, hk, _, rfl, .inr (.inr ⟨hl, by rw [h, hc, hl]; rfl⟩)⟩

theorem aluAdd_shape {i : Instr} {f : Form} {s t : State} (hr : i.destReg = f.toReg) (ha : i.storeAddr = f.toAddr)
    (hk : i.keepsFlags = false) (hl : i.writesLink = false) (hc : extraCycles i = 0) (h : aluAdd f s = .next t) :
    Shape i s t := by
  obtain ⟨s1, s2, -, -, h⟩ := aluAdd_next.mp h
  exact shape_of_finish hr ha (fun e => by rw [hk] at e; cases e) (by rw [hc]; rfl) (by rw [hl]; rfl) h

theorem aluDad_shape {i : Instr} {f : Form} {s t : State} (hr : i.destReg = f.toReg) (ha : i.storeAddr = f.toAddr)
    (hk : i.keepsFlags = false) (hl : i.writesLink = false) (hc : extraCycles i = 0) (h : aluDad f s = .next t) :
    Shape i s t := by
  obtain ⟨s1, s2, -, -, h⟩ := aluDad_next.mp h
  exact shape_of_finish hr ha (fun e => by rw [hk] at e; cases e) (by rw [hc]; rfl) (by rw [hl]; rfl) h

theorem aluAdc_shape {i : Instr} {f : Form} {s t : State} (hr : i.destReg = f.toReg) (ha : i.storeAddr = f.toAddr)
    (hk : i.keepsFlags = false) (hl : i.writesLink = false) (hc : extraCycles i = 0) (h : aluAdc f s = .next t) :
    Shape i s t := by
  obtain ⟨s1, s2, -, -, h⟩ := aluAdc_next.mp h
  exact shape_of_finish hr ha (fun e => by rw [hk] at e; cases e) (by rw [hc]; rfl) (by rw [hl]; rfl) h

theorem aluDac_shape {i : Instr} {f : Form} {s t : State} (hr : i.destReg = f.toReg) (ha : i.storeAddr = f.toAddr)
    (hk : i.keepsFlags = false) (hl : i.writesLink = false) (hc : extraCycles i = 0) (h : aluDac f s = .next t) :
    Shape i s t := by
  obtain ⟨s1, s2, -, -, h⟩ := aluDac_next.mp h
  exact shape_of_finish hr ha (fun e => by rw [hk] at e; cases e) (by rw [hc]; rfl) (by rw [hl]; rfl) h

theorem aluSub_shape {i : Instr} {f : Form} {s t : State} (hr : i.destReg = f.toReg) (ha : i.storeAddr = f.toAddr)
    (hk : i.keepsFlags = false) (hl : i.writesLink = false) (hc : extraCycles i = 0) (h : aluSub f s = .next t) :
    Shape i s t := by
  obtain ⟨s1, s2, -, -, h⟩ := aluSub_next.mp h
  exact shape_of_finish hr ha (fun e => by rw [hk] at e; cases e) (by rw [hc]; rfl) (by rw [hl]; rfl) h

theorem aluRsb_shape {i : Instr} {f : Form} {s t : State} (hr : i.destReg = f.toReg) (ha : i.storeAddr = f.toAddr)
    (hk : i.keepsFlags = false) (hl : i.writesLink = false) (hc : extraCycles i = 0) (h : aluRsb f s = .next t) :
    Shape i s t := by
  obtain ⟨s1, s2, -, -, h⟩ := aluRsb_next.mp h
  exact shape_of_finish hr ha (fun e => by rw [hk] at e; cases e) (by rw [hc]; rfl) (by rw [hl]; rfl) h

theorem aluSbc_shape {i : Instr} {f : Form} {s t : State} (hr : i.destReg = f.toReg) (ha : i.storeAddr = f.toAddr)
    (hk : i.keepsFlags = false) (hl : i.writesLink = false) (hc : extraCycles i = 0) (h : aluSbc f s = .next t) :
    Shape i s t := by
  obtain ⟨s1, s2, -, -, h⟩ := aluSbc_next.mp h
  exact shape_of_finish hr ha (fun e => by rw [hk] at e; cases e) (by rw [hc]; rfl) (by rw [hl]; rfl) h

theorem aluDsc_shape {i : Instr} {f : Form} {s t : State} (hr : i.destReg = f.toReg) (ha : i.storeAddr = f.toAddr)
    (hk : i.keepsFlags = false) (hl : i.writesLink = false) (hc : extraCycles i = 0) (h : aluDsc f s = .next t) :
    Shape i s t := by
  obtain ⟨s1, s2, -, -, h⟩ := aluDsc_next.mp h
  exact shape_of_finish hr ha (fun e => by rw [hk] at e; cases e) (by rw [hc]; rfl) (by rw [hl]; rfl) h

theorem aluAnd_shape {i : Instr} {f : Form} {s t : State} (hr : i.destReg = f.toReg) (ha : i.storeAddr = f.toAddr)
    (hk : i.keepsFlags = false) (hl : i.writesLink = false) (hc : extraCycles i = 0) (h : aluAnd f s = .next t) :
    Shape i s t := by
  obtain ⟨s1, s2, -, -, h⟩ := aluAnd_next.mp h
  exact shape_of_finish hr ha (fun e => by rw [hk] at e; cases e) (by rw [hc]; rfl) (by rw [hl]; rfl) h

theorem aluOr_shape {i : Instr} {f : Form} {s t : State} (hr : i.destReg = f.toReg) (ha : i.storeAddr = f.toAddr)
    (hk : i.keepsFlags = false) (hl : i.writesLink = false) (hc : extraCycles i = 0) (h : aluOr f s = .next t) :
    Shape i s t := by
  obtain ⟨s1, s2, -, -, h⟩ := aluOr_next.mp h
  exact shape_of_finish hr ha (fun e => by rw [hk] at e; cases e) (by rw [hc]; rfl) (by rw [hl]; rfl) h

theorem aluXor_shape {i : Instr} {f : Form} {s t : State} (hr : i.destReg = f.toReg) (ha : i.storeAddr = f.toAddr)
    (hk : i.keepsFlags = false) (hl : i.writesLink = false) (hc : extraCycles i = 0) (h : aluXor f s = .next t) :
    Shape i s t := by
  obtain ⟨s1, s2, -, -, h⟩ := aluXor_next.mp h
  exact shape_of_finish hr ha (fun e => by rw [hk] at e; cases e) (by rw [hc]; rfl) (by rw [hl]; rfl) h

theorem moveMov_shape {i : Instr} {f : Form} {s t : State} (hr : i.destReg = f.toReg) (ha : i.storeAddr = f.toAddr)
    (hl : i.writesLink = false) (hc : extraCycles i = 0) (h : moveMov f s = .next t) : Shape i s t := by
  obtain ⟨v, -, h⟩ := moveMov_next.mp h
  exact shape_of_finish (T := s.t) (C := s.c) (Z := s.z) (fc := s.freeCount) (cy := s.cycles) (l := s.r6) hr ha (fun _ => ⟨rfl, rfl, rfl⟩) (by rw [hc]; rfl) (by rw [hl]; rfl) h

theorem moveSet_shape {i : Instr} {f : Form} {s t : State} (hr : i.destReg = f.toReg) (ha : i.storeAddr = f.toAddr)
    (hl : i.writesLink = false) (hc : extraCycles i = 0) (h : moveSet f s = .next t) : Shape i s t := by
  obtain ⟨v, -, h⟩ := moveSet_next.mp h
  exact shape_of_finish (T := s.t) (C := s.c) (Z := s.z) (fc := s.freeCount) (cy := s.cycles) (l := s.r6) hr ha (fun _ => ⟨rfl, rfl, rfl⟩) (by rw [hc]; rfl) (by rw [hl]; rfl) h

theorem moveSef_shape {i : Instr} {f : Form} {s t : State} (hr : i.destReg = f.toReg) (ha : i.storeAddr = f.toAddr)
    (hl : i.writesLink = false) (hc : extraCycles i = 0) (h : moveSef f s = .next t) : Shape i s t := by
  obtain ⟨v, -, h⟩ := moveSef_next.mp h
  exact shape_of_finish (T := s.t) (C := s.c) (Z := s.z) (fc := s.freeCount) (cy := s.cycles) (l := s.r6) hr ha (fun _ => ⟨rfl, rfl, rfl⟩) (by rw [hc]; rfl) (by rw [hl]; rfl) h

theorem moveSel_shape {i : Instr} {f : Form} {s t : State} (hr : i.destReg = f.toReg) (ha : i.storeAddr = f.toAddr)
    (hl : i.writesLink = false) (hc : extraCycles i = 0) (h : moveSel f s = .next t) : Shape i s t := by
  obtain ⟨v, -, h⟩ := moveSel_next.mp h
  exact shape_of_finish (T := s.t) (C := s.c) (Z := s.z) (fc := s.freeCount) (cy := s.cycles) (l := s.r6) hr ha (fun _ => ⟨rfl, rfl, rfl⟩) (by rw [hc]; rfl) (by rw [hl]; rfl) h

theorem moveLink_shape {i : Instr} {f : Form} {s t : State} (hr : i.destReg = f.toReg) (ha : i.storeAddr = f.toAddr)
    (hd : f.dest { s with r6 := s.nextPc } = f.dest s) (hl : i.writesLink = true) (hc : extraCycles i = 0)
    (h : moveLink f s = .next t) : Shape i s t := by
  obtain ⟨v, -, h⟩ := moveLink_next.mp h
  rw [hd] at h
  exact shape_of_finish (T := s.t) (C := s.c) (Z := s.z) (fc := s.freeCount) (cy := s.cycles) (l := s.nextPc) hr ha (fun _ => ⟨rfl, rfl, rfl⟩) (by rw [hc]; rfl) (by rw [hl]; rfl) h

theorem condAdt_shape {i : Instr} {f : Form} {s t : State} (hr : i.destReg = f.toReg) (ha : i.storeAddr = f.toAddr)
    (hl : i.writesLink = false) (hc : extraCycles i = 0) (h : condAdt f s = .next t) : Shape i s t := by
  rcases condAdt_next.mp h with ⟨-, rfl⟩ | ⟨-, s1, s2, -, -, h⟩
  · exact shape_of_retire (T := s.t) (C := s.c) (Z := s.z) (fc := s.freeCount) (cy := s.cycles) (fun _ => ⟨rfl, rfl, rfl⟩) hl (by rw [hc]; rfl) rfl
  · exact shape_of_finish (T := s.t) (C := s.c) (Z := s.z) (fc := s.freeCount) (cy := s.cycles) (l := s.r6) hr ha (fun _ => ⟨rfl, rfl, rfl⟩) (by rw [hc]; rfl) (by rw [hl]; rfl) h

theorem condAdf_shape {i : Instr} {f : Form} {s t : State} (hr : i.destReg = f.toReg) (ha : i.storeAddr = f.toAddr)
    (hl : i.writesLink = false) (hc : extraCycles i = 0) (h : condAdf f s = .next t) : Shape i s t := by
  rcases condAdf_next.mp h with ⟨-, rfl⟩ | ⟨-, s1, s2, -, -, h⟩
  · exact shape_of_retire (T := s.t) (C := s.c) (Z := s.z) (fc := s.freeCount) (cy := s.cycles) (fun _ => ⟨rfl, rfl, rfl⟩) hl (by rw [hc]; rfl) rfl
  · exact shape_of_finish (T := s.t) (C := s.c) (Z := s.z) (fc := s.freeCount) (cy := s.cycles) (l := s.r6) hr ha (fun _ => ⟨rfl, rfl, rfl⟩) (by rw [hc]; rfl) (by rw [hl]; rfl) h

theorem condSbt_shape {i : Instr} {f : Form} {s t : State} (hr : i.destReg = f.toReg) (ha : i.storeAddr = f.toAddr)
    (hl : i.writesLink = false) (hc : extraCycles i = 0) (h : condSbt f s = .next t) : Shape i s t := by
  rcases condSbt_next.mp h with ⟨-, rfl⟩ | ⟨-, s1, s2, -, -, h⟩
  · exact shape_of_retire (T := s.t) (C := s.c) (Z := s.z) (fc := s.freeCount) (cy := s.cycles) (fun _ => ⟨rfl, rfl, rfl⟩) hl (by rw [hc]; rfl) rfl
  · exact shape_of_finish (T := s.t) (C := s.c) (Z := s.z) (fc := s.freeCount) (cy := s.cycles) (l := s.r6) hr ha (fun _ => ⟨rfl, rfl, rfl⟩) (by rw [hc]; rfl) (by rw [hl]; rfl) h

theorem condSbf_shape {i : Instr} {f : Form} {s t : State} (hr : i.destReg = f.toReg) (ha : i.storeAddr = f.toAddr)
    (hl : i.writesLink = false) (hc : extraCycles i = 0) (h : condSbf f s = .next t) : Shape i s t := by
  rcases condSbf_next.mp h with ⟨-, rfl⟩ | ⟨-, s1, s2, -, -, h⟩
  · exact shape_of_retire (T := s.t) (C := s.c) (Z := s.z) (fc := s.freeCount) (cy := s.cycles) (fun _ => ⟨rfl, rfl, rfl⟩) hl (by rw [hc]; rfl) rfl
  · exact shape_of_finish (T := s.t) (C := s.c) (Z := s.z) (fc := s.freeCount) (cy := s.cycles) (l := s.r6) hr ha (fun _ => ⟨rfl, rfl, rfl⟩) (by rw [hc]; rfl) (by rw [hl]; rfl) h

theorem compare_shape {i : Instr} {cc : CC} {p q : Word} {s t : State} (hk : i.keepsFlags = false)
    (hl : i.writesLink = false) (hc : extraCycles i = 0) (h : compare cc p q s = .next t) : Shape i s t := by
  cases h
  exact shape_of_retire (cy := s.cycles) (fun e => by rw [hk] at e; cases e) hl (by rw [hc]; rfl) rfl

theorem compareCarry_shape {i : Instr} {cc : CC} {p q : Word} {s t : State} (hk : i.keepsFlags = false)
    (hl : i.writesLink = false) (hc : extraCycles i = 0) (h : compareCarry cc p q s = .next t) : Shape i s t := by
  cases h
  exact shape_of_retire (cy := s.cycles) (fun e => by rw [hk] at e; cases e) hl (by rw [hc]; rfl) rfl

theorem finishShift_shape {i : Instr} {ri : Reg} {d : Shifted} {s t : State} (hr : i.destReg = some ri)
    (ha : i.storeAddr = none) (hk : i.keepsFlags = false) (hl : i.writesLink = false) (hc : extraCycles i = 0)
    (h : finishShift s ri d = .next t) : Shape i s t := by
  exact shape_of_finish (f := .imm ri 0) hr ha (fun e => by rw [hk] at e; cases e) (by rw [hc]; rfl) (by rw [hl]; rfl) h

/-- Everything one instruction can do. -/
theorem exec_shape {i : Instr} {s t : State} (h : exec i s = .next t) :
    (∃ k, i = .pfx k ∧ t = { s.retire with pfr := k }) ∨ (i = .hlt ∧ t = { s.retire with halted := true }) ∨
    (i ≠ .hlt ∧ (∀ k, i ≠ .pfx k) ∧ Shape i s t) := by
  cases i with
  | nop =>
    exact .inr (.inr ⟨by simp, by simp, shape_of_retire (T := s.t) (C := s.c) (Z := s.z) (fc := s.freeCount) (cy := s.cycles) (fun _ => ⟨rfl, rfl, rfl⟩) rfl rfl (by cases h; rfl)⟩)
  | pfx k =>
    exact .inl ⟨k, rfl, by cases h; rfl⟩
  | hlt =>
    exact .inr (.inl ⟨rfl, by cases h; rfl⟩)
  | lp ri rk =>
    obtain ⟨v, -, h⟩ := withVal_next.mp h
    exact .inr (.inr ⟨by simp, by simp, shape_of_finish (T := s.t) (C := s.c) (Z := s.z) (fc := s.freeCount) (l := s.r6) (f := .imm ri 0) rfl rfl (fun _ => ⟨rfl, rfl, rfl⟩) rfl rfl h⟩)
  | cmpML ri an k =>
    have h' : (Form.load ri (.indexed an k)).withSub s (fun p q => compare .eq p q s) = .next t := h
    obtain ⟨p, q, -, -, h⟩ := Form.withSub_next.mp h'
    exact .inr (.inr ⟨by simp, by simp, compare_shape rfl rfl rfl h⟩)
  | movML ri an k =>
    exact .inr (.inr ⟨by simp, by simp, moveMov_shape (f := .load ri (.indexed an k)) rfl rfl rfl rfl h⟩)
  | movMS ri an k =>
    exact .inr (.inr ⟨by simp, by simp, moveMov_shape (f := .store ri (.indexed an k)) rfl rfl rfl rfl h⟩)
  | addML ri an k =>
    exact .inr (.inr ⟨by simp, by simp, aluAdd_shape (f := .load ri (.indexed an k)) rfl rfl rfl rfl rfl h⟩)
  | addMS ri an k =>
    exact .inr (.inr ⟨by simp, by simp, aluAdd_shape (f := .store ri (.indexed an k)) rfl rfl rfl rfl rfl h⟩)
  | subML ri an k =>
    exact .inr (.inr ⟨by simp, by simp, aluSub_shape (f := .load ri (.indexed an k)) rfl rfl rfl rfl rfl h⟩)
  | subMS ri an k =>
    exact .inr (.inr ⟨by simp, by simp, aluSub_shape (f := .store ri (.indexed an k)) rfl rfl rfl rfl rfl h⟩)
  | andML ri an k =>
    exact .inr (.inr ⟨by simp, by simp, aluAnd_shape (f := .load ri (.indexed an k)) rfl rfl rfl rfl rfl h⟩)
  | andMS ri an k =>
    exact .inr (.inr ⟨by simp, by simp, aluAnd_shape (f := .store ri (.indexed an k)) rfl rfl rfl rfl rfl h⟩)
  | adtML ri an k =>
    exact .inr (.inr ⟨by simp, by simp, condAdt_shape (f := .load ri (.indexed an k)) rfl rfl rfl rfl h⟩)
  | adtMS ri an k =>
    exact .inr (.inr ⟨by simp, by simp, condAdt_shape (f := .store ri (.indexed an k)) rfl rfl rfl rfl h⟩)
  | cmpZL ri k =>
    have h' : (Form.load ri (.direct k)).withSub s (fun p q => compare .eq p q s) = .next t := h
    obtain ⟨p, q, -, -, h⟩ := Form.withSub_next.mp h'
    exact .inr (.inr ⟨by simp, by simp, compare_shape rfl rfl rfl h⟩)
  | cpcZL ri k =>
    have h' : (Form.load ri (.direct k)).withSub s (fun p q => compareCarry .eq p q s) = .next t := h
    obtain ⟨p, q, -, -, h⟩ := Form.withSub_next.mp h'
    exact .inr (.inr ⟨by simp, by simp, compareCarry_shape rfl rfl rfl h⟩)
  | movZL ri k =>
    exact .inr (.inr ⟨by simp, by simp, moveMov_shape (f := .load ri (.direct k)) rfl rfl rfl rfl h⟩)
  | movZS ri k =>
    exact .inr (.inr ⟨by simp, by simp, moveMov_shape (f := .store ri (.direct k)) rfl rfl rfl rfl h⟩)
  | setZL ri k =>
    exact .inr (.inr ⟨by simp, by simp, moveSet_shape (f := .load ri (.direct k)) rfl rfl rfl rfl h⟩)
  | setZS ri k =>
    exact .inr (.inr ⟨by simp, by simp, moveSet_shape (f := .store ri (.direct k)) rfl rfl rfl rfl h⟩)
  | sefZL ri k =>
    exact .inr (.inr ⟨by simp, by simp, moveSef_shape (f := .load ri (.direct k)) rfl rfl rfl rfl h⟩)
  | sefZS ri k =>
    exact .inr (.inr ⟨by simp, by simp, moveSef_shape (f := .store ri (.direct k)) rfl rfl rfl rfl h⟩)
  | selZL ri k =>
    exact .inr (.inr ⟨by simp, by simp, moveSel_shape (f := .load ri (.direct k)) rfl rfl rfl rfl h⟩)
  | selZS ri k =>
    exact .inr (.inr ⟨by simp, by simp, moveSel_shape (f := .store ri (.direct k)) rfl rfl rfl rfl h⟩)
  | addZL ri k =>
    exact .inr (.inr ⟨by simp, by simp, aluAdd_shape (f := .load ri (.direct k)) rfl rfl rfl rfl rfl h⟩)
  | addZS ri k =>
    exact .inr (.inr ⟨by simp, by simp, aluAdd_shape (f := .store ri (.direct k)) rfl rfl rfl rfl rfl h⟩)
  | dadZL ri k =>
    exact .inr (.inr ⟨by simp, by simp, aluDad_shape (f := .load ri (.direct k)) rfl rfl rfl rfl rfl h⟩)
  | dadZS ri k =>
    exact .inr (.inr ⟨by simp, by simp, aluDad_shape (f := .store ri (.direct k)) rfl rfl rfl rfl rfl h⟩)
  | adcZL ri k =>
    exact .inr (.inr ⟨by simp, by simp, aluAdc_shape (f := .load ri (.direct k)) rfl rfl rfl rfl rfl h⟩)
  | adcZS ri k =>
    exact .inr (.inr ⟨by simp, by simp, aluAdc_shape (f := .store ri (.direct k)) rfl rfl rfl rfl rfl h⟩)
  | dacZL ri k =>
    exact .inr (.inr ⟨by simp, by simp, aluDac_shape (f := .load ri (.direct k)) rfl rfl rfl rfl rfl h⟩)
  | dacZS ri k =>
    exact .inr (.inr ⟨by simp, by simp, aluDac_shape (f := .store ri (.direct k)) rfl rfl rfl rfl rfl h⟩)
  | subZL ri k =>
    exact .inr (.inr ⟨by simp, by simp, aluSub_shape (f := .load ri (.direct k)) rfl rfl rfl rfl rfl h⟩)
  | subZS ri k =>
    exact .inr (.inr ⟨by simp, by simp, aluSub_shape (f := .store ri (.direct k)) rfl rfl rfl rfl rfl h⟩)
  | rsbZL ri k =>
    exact .inr (.inr ⟨by simp, by simp, aluRsb_shape (f := .load ri (.direct k)) rfl rfl rfl rfl rfl h⟩)
  | rsbZS ri k =>
    exact .inr (.inr ⟨by simp, by simp, aluRsb_shape (f := .store ri (.direct k)) rfl rfl rfl rfl rfl h⟩)
  | sbcZL ri k =>
    exact .inr (.inr ⟨by simp, by simp, aluSbc_shape (f := .load ri (.direct k)) rfl rfl rfl rfl rfl h⟩)
  | sbcZS ri k =>
    exact .inr (.inr ⟨by simp, by simp, aluSbc_shape (f := .store ri (.direct k)) rfl rfl rfl rfl rfl h⟩)
  | dscZL ri k =>
    exact .inr (.inr ⟨by simp, by simp, aluDsc_shape (f := .load ri (.direct k)) rfl rfl rfl rfl rfl h⟩)
  | dscZS ri k =>
    exact .inr (.inr ⟨by simp, by simp, aluDsc_shape (f := .store ri (.direct k)) rfl rfl rfl rfl rfl h⟩)
  | andZL ri k =>
    exact .inr (.inr ⟨by simp, by simp, aluAnd_shape (f := .load ri (.direct k)) rfl rfl rfl rfl rfl h⟩)
  | andZS ri k =>
    exact .inr (.inr ⟨by simp, by simp, aluAnd_shape (f := .store ri (.direct k)) rfl rfl rfl rfl rfl h⟩)
  | orZL ri k =>
    exact .inr (.inr ⟨by simp, by simp, aluOr_shape (f := .load ri (.direct k)) rfl rfl rfl rfl rfl h⟩)
  | orZS ri k =>
    exact .inr (.inr ⟨by simp, by simp, aluOr_shape (f := .store ri (.direct k)) rfl rfl rfl rfl rfl h⟩)
  | xorZL ri k =>
    exact .inr (.inr ⟨by simp, by simp, aluXor_shape (f := .load ri (.direct k)) rfl rfl rfl rfl rfl h⟩)
  | xorZS ri k =>
    exact .inr (.inr ⟨by simp, by simp, aluXor_shape (f := .store ri (.direct k)) rfl rfl rfl rfl rfl h⟩)
  | mvlZL ri k =>
    exact .inr (.inr ⟨by simp, by simp, moveLink_shape (f := .load ri (.direct k)) rfl rfl rfl rfl rfl h⟩)
  | mvlZS ri k =>
    exact .inr (.inr ⟨by simp, by simp, moveLink_shape (f := .store ri (.direct k)) rfl rfl rfl rfl rfl h⟩)
  | adtZL ri k =>
    exact .inr (.inr ⟨by simp, by simp, condAdt_shape (f := .load ri (.direct k)) rfl rfl rfl rfl h⟩)
  | adtZS ri k =>
    exact .inr (.inr ⟨by simp, by simp, condAdt_shape (f := .store ri (.direct k)) rfl rfl rfl rfl h⟩)
  | adfZL ri k =>
    exact .inr (.inr ⟨by simp, by simp, condAdf_shape (f := .load ri (.direct k)) rfl rfl rfl rfl h⟩)
  | adfZS ri k =>
    exact .inr (.inr ⟨by simp, by simp, condAdf_shape (f := .store ri (.direct k)) rfl rfl rfl rfl h⟩)
  | sbtZL ri k =>
    exact .inr (.inr ⟨by simp, by simp, condSbt_shape (f := .load ri (.direct k)) rfl rfl rfl rfl h⟩)
  | sbtZS ri k =>
    exact .inr (.inr ⟨by simp, by simp, condSbt_shape (f := .store ri (.direct k)) rfl rfl rfl rfl h⟩)
  | sbfZL ri k =>
    exact .inr (.inr ⟨by simp, by simp, condSbf_shape (f := .load ri (.direct k)) rfl rfl rfl rfl h⟩)
  | sbfZS ri k =>
    exact .inr (.inr ⟨by simp, by simp, condSbf_shape (f := .store ri (.direct k)) rfl rfl rfl rfl h⟩)
  | sr1R ri rj =>
    exact .inr (.inr ⟨by simp, by simp, finishShift_shape rfl rfl rfl rfl rfl h⟩)
  | rr1R ri rj rk =>
    exact .inr (.inr ⟨by simp, by simp, finishShift_shape rfl rfl rfl rfl rfl h⟩)
  | sr4R ri rj =>
    exact .inr (.inr ⟨by simp, by simp, finishShift_shape rfl rfl rfl rfl rfl h⟩)
  | rr4R ri rj rk =>
    exact .inr (.inr ⟨by simp, by simp, finishShift_shape rfl rfl rfl rfl rfl h⟩)
  | sl1R ri rj =>
    exact .inr (.inr ⟨by simp, by simp, finishShift_shape rfl rfl rfl rfl rfl h⟩)
  | rl1R ri rj rk =>
    exact .inr (.inr ⟨by simp, by simp, finishShift_shape rfl rfl rfl rfl rfl h⟩)
  | sl4R ri rj =>
    exact .inr (.inr ⟨by simp, by simp, finishShift_shape rfl rfl rfl rfl rfl h⟩)
  | rl4R ri rj rk =>
    exact .inr (.inr ⟨by simp, by simp, finishShift_shape rfl rfl rfl rfl rfl h⟩)
  | cmpR cc rj rk =>
    exact .inr (.inr ⟨by simp, by simp, compare_shape rfl rfl rfl h⟩)
  | cpcR cc rj rk =>
    exact .inr (.inr ⟨by simp, by simp, compareCarry_shape rfl rfl rfl h⟩)
  | movR ri rk =>
    exact .inr (.inr ⟨by simp, by simp, moveMov_shape (f := .regs ri rk rk) rfl rfl rfl rfl h⟩)
  | setR ri rk =>
    exact .inr (.inr ⟨by simp, by simp, moveSet_shape (f := .regs ri rk rk) rfl rfl rfl rfl h⟩)
  | sefR ri rk =>
    exact .inr (.inr ⟨by simp, by simp, moveSef_shape (f := .regs ri rk rk) rfl rfl rfl rfl h⟩)
  | selR ri rj rk =>
    exact .inr (.inr ⟨by simp, by simp, moveSel_shape (f := .regs ri rj rk) rfl rfl rfl rfl h⟩)
  | addR ri rj rk =>
    exact .inr (.inr ⟨by simp, by simp, aluAdd_shape (f := .regs ri rj rk) rfl rfl rfl rfl rfl h⟩)
  | dadR ri rj rk =>
    exact .inr (.inr ⟨by simp, by simp, aluDad_shape (f := .regs ri rj rk) rfl rfl rfl rfl rfl h⟩)
  | adcR ri rj rk =>
    exact .inr (.inr ⟨by simp, by simp, aluAdc_shape (f := .regs ri rj rk) rfl rfl rfl rfl rfl h⟩)
  | dacR ri rj rk =>
    exact .inr (.inr ⟨by simp, by simp, aluDac_shape (f := .regs ri rj rk) rfl rfl rfl rfl rfl h⟩)
  | subR ri rj rk =>
    exact .inr (.inr ⟨by simp, by simp, aluSub_shape (f := .regs ri rj rk) rfl rfl rfl rfl rfl h⟩)
  | rsbR ri rj rk =>
    exact .inr (.inr ⟨by simp, by simp, aluRsb_shape (f := .regs ri rj rk) rfl rfl rfl rfl rfl h⟩)
  | sbcR ri rj rk =>
    exact .inr (.inr ⟨by simp, by simp, aluSbc_shape (f := .regs ri rj rk) rfl rfl rfl rfl rfl h⟩)
  | dscR ri rj rk =>
    exact .inr (.inr ⟨by simp, by simp, aluDsc_shape (f := .regs ri rj rk) rfl rfl rfl rfl rfl h⟩)
  | andR ri rj rk =>
    exact .inr (.inr ⟨by simp, by simp, aluAnd_shape (f := .regs ri rj rk) rfl rfl rfl rfl rfl h⟩)
  | orR ri rj rk =>
    exact .inr (.inr ⟨by simp, by simp, aluOr_shape (f := .regs ri rj rk) rfl rfl rfl rfl rfl h⟩)
  | xorR ri rj rk =>
    exact .inr (.inr ⟨by simp, by simp, aluXor_shape (f := .regs ri rj rk) rfl rfl rfl rfl rfl h⟩)
  | mvlR ri rk =>
    exact .inr (.inr ⟨by simp, by simp, moveLink_shape (f := .regs ri rk rk) rfl rfl rfl rfl rfl h⟩)
  | adtR ri rj rk =>
    exact .inr (.inr ⟨by simp, by simp, condAdt_shape (f := .regs ri rj rk) rfl rfl rfl rfl h⟩)
  | adfR ri rj rk =>
    exact .inr (.inr ⟨by simp, by simp, condAdf_shape (f := .regs ri rj rk) rfl rfl rfl rfl h⟩)
  | sbtR ri rj rk =>
    exact .inr (.inr ⟨by simp, by simp, condSbt_shape (f := .regs ri rj rk) rfl rfl rfl rfl h⟩)
  | sbfR ri rj rk =>
    exact .inr (.inr ⟨by simp, by simp, condSbf_shape (f := .regs ri rj rk) rfl rfl rfl rfl h⟩)
  | cmpI ri k =>
    have h' : (Form.imm ri k).withSub s (fun p q => compare .eq p q s) = .next t := h
    obtain ⟨p, q, -, -, h⟩ := Form.withSub_next.mp h'
    exact .inr (.inr ⟨by simp, by simp, compare_shape rfl rfl rfl h⟩)
  | cpcI ri k =>
    have h' : (Form.imm ri k).withSub s (fun p q => compareCarry .eq p q s) = .next t := h
    obtain ⟨p, q, -, -, h⟩ := Form.withSub_next.mp h'
    exact .inr (.inr ⟨by simp, by simp, compareCarry_shape rfl rfl rfl h⟩)
  | movI ri k =>
    exact .inr (.inr ⟨by simp, by simp, moveMov_shape (f := .imm ri k) rfl rfl rfl rfl h⟩)
  | j k =>
    exact .inr (.inr ⟨by simp, by simp, moveMov_shape (f := .imm .pc k) rfl rfl rfl rfl h⟩)
  | setI ri k =>
    exact .inr (.inr ⟨by simp, by simp, moveSet_shape (f := .imm ri k) rfl rfl rfl rfl h⟩)
  | sefI ri k =>
    exact .inr (.inr ⟨by simp, by simp, moveSef_shape (f := .imm ri k) rfl rfl rfl rfl h⟩)
  | selI ri k =>
    exact .inr (.inr ⟨by simp, by simp, moveSel_shape (f := .imm ri k) rfl rfl rfl rfl h⟩)
  | addI ri k =>
    exact .inr (.inr ⟨by simp, by simp, aluAdd_shape (f := .imm ri k) rfl rfl rfl rfl rfl h⟩)
  | bPlus k =>
    exact .inr (.inr ⟨by simp, by simp, aluAdd_shape (f := .imm .pc k) rfl rfl rfl rfl rfl h⟩)
  | dadI ri k =>
    exact .inr (.inr ⟨by simp, by simp, aluDad_shape (f := .imm ri k) rfl rfl rfl rfl rfl h⟩)
  | adcI ri k =>
    exact .inr (.inr ⟨by simp, by simp, aluAdc_shape (f := .imm ri k) rfl rfl rfl rfl rfl h⟩)
  | dacI ri k =>
    exact .inr (.inr ⟨by simp, by simp, aluDac_shape (f := .imm ri k) rfl rfl rfl rfl rfl h⟩)
  | subI ri k =>
    exact .inr (.inr ⟨by simp, by simp, aluSub_shape (f := .imm ri k) rfl rfl rfl rfl rfl h⟩)
  | bMinus k =>
    exact .inr (.inr ⟨by simp, by simp, aluSub_shape (f := .imm .pc k) rfl rfl rfl rfl rfl h⟩)
  | rsbI ri k =>
    exact .inr (.inr ⟨by simp, by simp, aluRsb_shape (f := .imm ri k) rfl rfl rfl rfl rfl h⟩)
  | sbcI ri k =>
    exact .inr (.inr ⟨by simp, by simp, aluSbc_shape (f := .imm ri k) rfl rfl rfl rfl rfl h⟩)
  | dscI ri k =>
    exact .inr (.inr ⟨by simp, by simp, aluDsc_shape (f := .imm ri k) rfl rfl rfl rfl rfl h⟩)
  | andI ri k =>
    exact .inr (.inr ⟨by simp, by simp, aluAnd_shape (f := .imm ri k) rfl rfl rfl rfl rfl h⟩)
  | orI ri k =>
    exact .inr (.inr ⟨by simp, by simp, aluOr_shape (f := .imm ri k) rfl rfl rfl rfl rfl h⟩)
  | xorI ri k =>
    exact .inr (.inr ⟨by simp, by simp, aluXor_shape (f := .imm ri k) rfl rfl rfl rfl rfl h⟩)
  | mvlI ri k =>
    exact .inr (.inr ⟨by simp, by simp, moveLink_shape (f := .imm ri k) rfl rfl rfl rfl rfl h⟩)
  | jl k =>
    exact .inr (.inr ⟨by simp, by simp, moveLink_shape (f := .imm .pc k) rfl rfl rfl rfl rfl h⟩)
  | adtI ri k =>
    exact .inr (.inr ⟨by simp, by simp, condAdt_shape (f := .imm ri k) rfl rfl rfl rfl h⟩)
  | btPlus k =>
    exact .inr (.inr ⟨by simp, by simp, condAdt_shape (f := .imm .pc k) rfl rfl rfl rfl h⟩)
  | adfI ri k =>
    exact .inr (.inr ⟨by simp, by simp, condAdf_shape (f := .imm ri k) rfl rfl rfl rfl h⟩)
  | bfPlus k =>
    exact .inr (.inr ⟨by simp, by simp, condAdf_shape (f := .imm .pc k) rfl rfl rfl rfl h⟩)
  | sbtI ri k =>
    exact .inr (.inr ⟨by simp, by simp, condSbt_shape (f := .imm ri k) rfl rfl rfl rfl h⟩)
  | btMinus k =>
    exact .inr (.inr ⟨by simp, by simp, condSbt_shape (f := .imm .pc k) rfl rfl rfl rfl h⟩)
  | sbfI ri k =>
    exact .inr (.inr ⟨by simp, by simp, condSbf_shape (f := .imm ri k) rfl rfl rfl rfl h⟩)
  | bfMinus k =>
    exact .inr (.inr ⟨by simp, by simp, condSbf_shape (f := .imm .pc k) rfl rfl rfl rfl h⟩)

end Sys2Proof.Machine
end

