-- ==== Sys2Proof/Laws/Completes.lean ====
section
/-! SUPPORT. How a meaning that ends in `finish` or `retire` completes, said once. -/

namespace Sys2Proof.Machine

/-- `s'` differs from `s` at most in the flags and the model's counters. -/
def State.SameBut (s s' : State) : Prop := ∃ T C Z fc cy, s' = s.prepared T C Z fc cy s.r6

theorem State.SameBut.refl (s : State) : s.SameBut s := ⟨s.t, s.c, s.z, s.freeCount, s.cycles, rfl⟩

theorem State.sameBut_setArith (s : State) (r : Word) (b : Bool) : s.SameBut (s.setArith r b) :=
  ⟨r == 0, b, r == 0, s.freeCount, s.cycles, rfl⟩

theorem State.sameBut_setCarryIn (s : State) (r : Word) (b : Bool) : s.SameBut (s.setCarryIn r b) :=
  ⟨s.z && r == 0, b, s.z && r == 0, s.freeCount, s.cycles, rfl⟩

theorem State.sameBut_setBitwise (s : State) (r : Word) : s.SameBut (s.setBitwise r) := s.sameBut_setArith r false

theorem State.sameBut_setShift (s : State) (b : Bool) : s.SameBut (s.setShift b) :=
  ⟨b, b, Config.shiftZ s.freeCount, s.freeCount + 1, s.cycles, rfl⟩

theorem State.sameBut_setCompare (s : State) (cc : CC) (d : Sum) (z : Bool) : s.SameBut (s.setCompare cc d z) :=
  ⟨_, _, _, s.freeCount, s.cycles, rfl⟩

/-- An instruction that ends by writing `v` to `d` completes. -/
theorem completes_finish {s s' : State} {d : Dest} {v : Word} {flags : State → Prop} (hs : s.SameBut s')
    (hd : ∀ ea, d = .mem ea → ea.toNat < s.dataWords)
    (hf : ∀ t : State, t.t = s'.t → t.c = s'.c → t.z = s'.z → flags t) : Completes (finish s' d v) s d v flags := by
  obtain ⟨T, C, Z, fc, cy, rfl⟩ := hs
  cases d with
  | reg r =>
    refine ⟨_, finish_reg _ r v, ⟨?_, fun h => State.readReg_writeReg_same _ h v, fun q hp hq => ?_, fun a => ?_⟩,
      hf _ ?_ ?_ ?_, fun a => ?_, ?_⟩
    · rintro rfl
      rfl
    · rw [State.readReg_writeReg_ne _ hq]
      cases q <;> first | rfl | exact absurd rfl hp
    all_goals cases r <;> rfl
  | mem ea =>
    have hea := hd ea rfl
    refine ⟨_, finish_mem.mpr ⟨hea, rfl⟩, ⟨?_, fun b hb => ?_, fun q hq => ?_⟩, hf _ rfl rfl rfl, fun a => rfl, rfl⟩
    · exact readWord_ok.mpr ⟨hea, Memory.read_write_same _ _ _⟩
    · have hn : b.toNat ≠ ea.toNat := fun e => hb (BitVec.eq_of_toNat_eq e)
      simp only [State.readData, readWord, Memory.read_write_ne _ hn]
      rfl
    · cases q <;> first | rfl | exact absurd rfl hq

/-- An instruction that ends without a destination completes. -/
theorem completesNone_finish {s s' : State} {flags : State → Prop} (hs : s.SameBut s')
    (hf : ∀ t : State, t.t = s'.t → t.c = s'.c → t.z = s'.z → flags t) : CompletesNone (finishNone s') s flags := by
  obtain ⟨T, C, Z, fc, cy, rfl⟩ := hs
  refine ⟨_, rfl, ⟨fun q hq => ?_, fun a => rfl⟩, rfl, hf _ rfl rfl rfl, fun a => rfl, rfl⟩
  cases q <;> first | rfl | exact absurd rfl hq

/-- A data word that has been read is installed. -/
theorem State.installed_of_readData {s : State} {a v : Word} (h : s.readData a = .ok v) : a.toNat < s.dataWords :=
  (readWord_ok.mp h).1

end Sys2Proof.Machine
end

