-- ==== Sys2Proof/Laws/Decode.lean ====
section
/-! SUPPORT. The fields of a packed word, and the numbers of registers and condition codes. -/

namespace Sys2Proof

/-! ## Numbers of names (10_state.md R10, 30_encoding.md R67, 44_compare.md R160) -/

@[simp] theorem regOfBits_regBits (r : Reg) : regOfBits (regBits r) = r := by cases r <;> rfl
@[simp] theorem regBits_regOfBits (b : BitVec 3) : regBits (regOfBits b) = b := by revert b; decide
@[simp] theorem aregOfBits_aregBits (a : AReg) : aregOfBits (aregBits a) = some a := by cases a <;> rfl
@[simp] theorem ccOfBits_ccBits (c : CC) : ccOfBits (ccBits c) = c := by cases c <;> rfl
@[simp] theorem ccBits_ccOfBits (b : BitVec 3) : ccBits (ccOfBits b) = b := by revert b; decide

/-- The `An` field that names an address register. -/
theorem aregOfBits_eq_some {b : BitVec 2} {a : AReg} : aregOfBits b = some a ↔ b = aregBits a := by
  cases a <;> revert b <;> decide

/-- Only PC has number 7. -/
theorem regBits_eq_seven {r : Reg} : (regBits r).toNat = 7 ↔ r = .pc := by cases r <;> decide

/-! ## The fields of `packWord` (30_encoding.md R60 to R65) -/

section
variable (m : BitVec 2) (op d : BitVec 3) (f : BitVec 2)

@[simp] theorem modeF_packWord (l : BitVec 6) : modeF (packWord m op d f l) = m := by
  apply BitVec.eq_of_getLsbD_eq
  intro i hi
  simp only [modeF, packWord, BitVec.getLsbD_extractLsb', BitVec.getLsbD_append]
  interval_cases i <;> simp

@[simp] theorem opF_packWord (l : BitVec 6) : opF (packWord m op d f l) = op := by
  apply BitVec.eq_of_getLsbD_eq
  intro i hi
  simp only [opF, packWord, BitVec.getLsbD_extractLsb', BitVec.getLsbD_append]
  interval_cases i <;> simp

@[simp] theorem destF_packWord (l : BitVec 6) : destF (packWord m op d f l) = d := by
  apply BitVec.eq_of_getLsbD_eq
  intro i hi
  simp only [destF, packWord, BitVec.getLsbD_extractLsb', BitVec.getLsbD_append]
  interval_cases i <;> simp

@[simp] theorem fnF_packWord (l : BitVec 6) : fnF (packWord m op d f l) = f := by
  apply BitVec.eq_of_getLsbD_eq
  intro i hi
  simp only [fnF, packWord, BitVec.getLsbD_extractLsb', BitVec.getLsbD_append]
  interval_cases i <;> simp

@[simp] theorem sF_packWord (s : BitVec 1) (k : Imm5) : sF (packWord m op d f (s ++ k)) = s := by
  apply BitVec.eq_of_getLsbD_eq
  intro i hi
  simp only [sF, packWord, BitVec.getLsbD_extractLsb', BitVec.getLsbD_append]
  interval_cases i
  simp

@[simp] theorem immF_packWord (s : BitVec 1) (k : Imm5) : immF (packWord m op d f (s ++ k)) = k := by
  apply BitVec.eq_of_getLsbD_eq
  intro i hi
  simp only [immF, packWord, BitVec.getLsbD_extractLsb', BitVec.getLsbD_append]
  interval_cases i <;> simp

@[simp] theorem rjF_packWord (x y : BitVec 3) : rjF (packWord m op d f (x ++ y)) = regOfBits x := by
  unfold rjF
  congr 1
  apply BitVec.eq_of_getLsbD_eq
  intro i hi
  simp only [packWord, BitVec.getLsbD_extractLsb', BitVec.getLsbD_append]
  interval_cases i <;> simp

@[simp] theorem rkF_packWord (x y : BitVec 3) : rkF (packWord m op d f (x ++ y)) = regOfBits y := by
  unfold rkF
  congr 1
  apply BitVec.eq_of_getLsbD_eq
  intro i hi
  simp only [packWord, BitVec.getLsbD_extractLsb', BitVec.getLsbD_append]
  interval_cases i <;> simp

@[simp] theorem sF_packWord_regs (x : BitVec 3) :
    sF (packWord m op d f (0#3 ++ x)) = 0 := by
  apply BitVec.eq_of_getLsbD_eq
  intro i hi
  simp only [sF, packWord, BitVec.getLsbD_extractLsb', BitVec.getLsbD_append]
  interval_cases i
  simp

@[simp] theorem riF_packWord (r : Reg) (l : BitVec 6) : riF (packWord m op (regBits r) f l) = r := by
  simp [riF]

@[simp] theorem ccF_packWord (c : CC) (l : BitVec 6) : ccF (packWord m op (ccBits c) f l) = c := by
  simp [ccF]

end

/-! ## The fields of a `pfx` word -/

@[simp] theorem modeF_pfx (k : Imm11) : modeF (0#5 ++ k) = 0 := by
  apply BitVec.eq_of_getLsbD_eq
  intro i hi
  simp only [modeF, BitVec.getLsbD_extractLsb', BitVec.getLsbD_append]
  interval_cases i <;> simp

@[simp] theorem opF_pfx (k : Imm11) : opF (0#5 ++ k) = 0 := by
  apply BitVec.eq_of_getLsbD_eq
  intro i hi
  simp only [opF, BitVec.getLsbD_extractLsb', BitVec.getLsbD_append]
  interval_cases i <;> simp

@[simp] theorem imm11F_pfx (k : Imm11) : imm11F (0#5 ++ k) = k := by
  apply BitVec.eq_of_getLsbD_eq
  intro i hi
  simp only [imm11F, BitVec.getLsbD_extractLsb', BitVec.getLsbD_append]
  interval_cases i <;> simp

/-! ## Which part of the decoder reads a packed word (30_encoding.md R77) -/

theorem decode_packM {op : BitVec 3} (h : op ≠ 0) (ri : Reg) (an : AReg) (s : BitVec 1) (k : Imm5) :
    decode (packM op ri an s k) = decodeM an (packM op ri an s k) := by
  have h' : op.toNat ≠ 0 := fun e => h (BitVec.eq_of_toNat_eq (by simpa using e))
  simp [decode, decodeMode0, packM, h']

theorem decode_packZ (op : BitVec 3) (ri : Reg) (fn : BitVec 2) (s : BitVec 1) (k : Imm5) :
    decode (packZ op ri fn s k) = decodeZ (packZ op ri fn s k) := by
  simp [decode, packZ]

theorem decode_packR (op d : BitVec 3) (fn : BitVec 2) (rj rk : Reg) :
    decode (packR op d fn rj rk) = decodeR (packR op d fn rj rk) := by
  simp [decode, packR]

theorem decode_packI (op : BitVec 3) (ri : Reg) (fn : BitVec 2) (k : Imm5) :
    decode (packI op ri fn k) = if ri = .pc then decodeJ (packI op ri fn k) else decodeGprI (packI op ri fn k) := by
  cases ri <;> simp [decode, decodeI, packI, regBits]

/-- Masking a packed word masks its fields. -/
theorem packWord_and (m m' : BitVec 2) (op op' d d' : BitVec 3) (f f' : BitVec 2) (l l' : BitVec 6) :
    packWord m op d f l &&& packWord m' op' d' f' l' =
      packWord (m &&& m') (op &&& op') (d &&& d') (f &&& f') (l &&& l') := by
  apply BitVec.eq_of_getLsbD_eq
  intro i hi
  simp only [packWord, BitVec.getLsbD_and, BitVec.getLsbD_append]
  interval_cases i <;> simp

/-- A word is the packing of its fields. -/
theorem packWord_fields (w : Word) :
    packWord (modeF w) (opF w) (destF w) (fnF w) (sF w ++ immF w) = w := by
  apply BitVec.eq_of_getLsbD_eq
  intro i hi
  simp only [packWord, modeF, opF, destF, fnF, sF, immF, BitVec.getLsbD_extractLsb', BitVec.getLsbD_append]
  interval_cases i <;> simp

end Sys2Proof
end

