-- ==== Sys2Proof/Laws/PerInstr.lean ====
section
/-! SUPPORT. Facts about every instruction as syntax, one lemma per constructor (LAWS.json). -/

namespace Sys2Proof.Laws.EncodingRow

/-- The `mask` of an instruction's row in spec/opcode_table.json: the bits its row fixes. -/
def rowMask : Instr → Word
  | .nop => 0xFFFF
  | .pfx _ => 0xF800
  | .hlt | .lp _ _ | .cmpZL _ _ | .cpcZL _ _ | .movZL _ _ | .movZS _ _ | .setZL _ _ | .setZS _ _ | .sefZL _ _
  | .sefZS _ _ | .selZL _ _ | .selZS _ _ | .addZL _ _ | .addZS _ _ | .dadZL _ _ | .dadZS _ _ | .adcZL _ _
  | .adcZS _ _ | .dacZL _ _ | .dacZS _ _ | .subZL _ _ | .subZS _ _ | .rsbZL _ _ | .rsbZS _ _ | .sbcZL _ _
  | .sbcZS _ _ | .dscZL _ _ | .dscZS _ _ | .andZL _ _ | .andZS _ _ | .orZL _ _ | .orZS _ _ | .xorZL _ _
  | .xorZS _ _ | .mvlZL _ _ | .mvlZS _ _ | .adtZL _ _ | .adtZS _ _ | .adfZL _ _ | .adfZS _ _ | .sbtZL _ _
  | .sbtZS _ _ | .sbfZL _ _ | .sbfZS _ _ | .cmpI _ _ | .cpcI _ _ | .movI _ _ | .setI _ _ | .sefI _ _ | .selI _ _
  | .addI _ _ | .dadI _ _ | .adcI _ _ | .dacI _ _ | .subI _ _ | .rsbI _ _ | .sbcI _ _ | .dscI _ _ | .andI _ _
  | .orI _ _ | .xorI _ _ | .mvlI _ _ | .adtI _ _ | .adfI _ _ | .sbtI _ _ | .sbfI _ _ => 0xF8E0
  | .cmpML _ _ _ | .movML _ _ _ | .movMS _ _ _ | .addML _ _ _ | .addMS _ _ _ | .subML _ _ _ | .subMS _ _ _
  | .andML _ _ _ | .andMS _ _ _ | .adtML _ _ _ | .adtMS _ _ _ => 0xF820
  | .sr1R _ _ | .rr1R _ _ _ | .sr4R _ _ | .rr4R _ _ _ | .sl1R _ _ | .rl1R _ _ _ | .sl4R _ _ | .rl4R _ _ _
  | .cmpR _ _ _ | .cpcR _ _ _ | .movR _ _ | .setR _ _ | .sefR _ _ | .selR _ _ _ | .addR _ _ _ | .dadR _ _ _
  | .adcR _ _ _ | .dacR _ _ _ | .subR _ _ _ | .rsbR _ _ _ | .sbcR _ _ _ | .dscR _ _ _ | .andR _ _ _ | .orR _ _ _
  | .xorR _ _ _ | .mvlR _ _ | .adtR _ _ _ | .adfR _ _ _ | .sbtR _ _ _ | .sbfR _ _ _ => 0xF8C0
  | .j _ | .bPlus _ | .bMinus _ | .jl _ | .btPlus _ | .bfPlus _ | .btMinus _ | .bfMinus _ => 0xFFE0

/-- The `match` of an instruction's row in spec/opcode_table.json: the values of those bits. -/
def rowMatch : Instr → Word
  | .nop | .pfx _ => 0x0000
  | .hlt => 0x0800
  | .lp _ _ | .movML _ _ _ => 0x1800
  | .cmpML _ _ _ => 0x1000
  | .movMS _ _ _ => 0x1820
  | .addML _ _ _ => 0x2000
  | .addMS _ _ _ => 0x2020
  | .subML _ _ _ => 0x2800
  | .subMS _ _ _ => 0x2820
  | .andML _ _ _ => 0x3000
  | .andMS _ _ _ => 0x3020
  | .adtML _ _ _ => 0x3800
  | .adtMS _ _ _ => 0x3820
  | .cmpZL _ _ => 0x5000
  | .cpcZL _ _ => 0x5080
  | .movZL _ _ => 0x5800
  | .movZS _ _ => 0x5820
  | .setZL _ _ => 0x5840
  | .setZS _ _ => 0x5860
  | .sefZL _ _ => 0x5880
  | .sefZS _ _ => 0x58A0
  | .selZL _ _ => 0x58C0
  | .selZS _ _ => 0x58E0
  | .addZL _ _ => 0x6000
  | .addZS _ _ => 0x6020
  | .dadZL _ _ => 0x6040
  | .dadZS _ _ => 0x6060
  | .adcZL _ _ => 0x6080
  | .adcZS _ _ => 0x60A0
  | .dacZL _ _ => 0x60C0
  | .dacZS _ _ => 0x60E0
  | .subZL _ _ => 0x6800
  | .subZS _ _ => 0x6820
  | .rsbZL _ _ => 0x6840
  | .rsbZS _ _ => 0x6860
  | .sbcZL _ _ => 0x6880
  | .sbcZS _ _ => 0x68A0
  | .dscZL _ _ => 0x68C0
  | .dscZS _ _ => 0x68E0
  | .andZL _ _ => 0x7000
  | .andZS _ _ => 0x7020
  | .orZL _ _ => 0x7040
  | .orZS _ _ => 0x7060
  | .xorZL _ _ => 0x7080
  | .xorZS _ _ => 0x70A0
  | .mvlZL _ _ => 0x70C0
  | .mvlZS _ _ => 0x70E0
  | .adtZL _ _ => 0x7800
  | .adtZS _ _ => 0x7820
  | .adfZL _ _ => 0x7840
  | .adfZS _ _ => 0x7860
  | .sbtZL _ _ => 0x7880
  | .sbtZS _ _ => 0x78A0
  | .sbfZL _ _ => 0x78C0
  | .sbfZS _ _ => 0x78E0
  | .sr1R _ _ => 0x8000
  | .rr1R _ _ _ => 0x8040
  | .sr4R _ _ => 0x8080
  | .rr4R _ _ _ => 0x80C0
  | .sl1R _ _ => 0x8800
  | .rl1R _ _ _ => 0x8840
  | .sl4R _ _ => 0x8880
  | .rl4R _ _ _ => 0x88C0
  | .cmpR _ _ _ => 0x9000
  | .cpcR _ _ _ => 0x9080
  | .movR _ _ => 0x9800
  | .setR _ _ => 0x9840
  | .sefR _ _ => 0x9880
  | .selR _ _ _ => 0x98C0
  | .addR _ _ _ => 0xA000
  | .dadR _ _ _ => 0xA040
  | .adcR _ _ _ => 0xA080
  | .dacR _ _ _ => 0xA0C0
  | .subR _ _ _ => 0xA800
  | .rsbR _ _ _ => 0xA840
  | .sbcR _ _ _ => 0xA880
  | .dscR _ _ _ => 0xA8C0
  | .andR _ _ _ => 0xB000
  | .orR _ _ _ => 0xB040
  | .xorR _ _ _ => 0xB080
  | .mvlR _ _ => 0xB0C0
  | .adtR _ _ _ => 0xB800
  | .adfR _ _ _ => 0xB840
  | .sbtR _ _ _ => 0xB880
  | .sbfR _ _ _ => 0xB8C0
  | .cmpI _ _ => 0xD000
  | .cpcI _ _ => 0xD080
  | .movI _ _ => 0xD800
  | .j _ => 0xDF00
  | .setI _ _ => 0xD840
  | .sefI _ _ => 0xD880
  | .selI _ _ => 0xD8C0
  | .addI _ _ => 0xE000
  | .bPlus _ => 0xE700
  | .dadI _ _ => 0xE040
  | .adcI _ _ => 0xE080
  | .dacI _ _ => 0xE0C0
  | .subI _ _ => 0xE800
  | .bMinus _ => 0xEF00
  | .rsbI _ _ => 0xE840
  | .sbcI _ _ => 0xE880
  | .dscI _ _ => 0xE8C0
  | .andI _ _ => 0xF000
  | .orI _ _ => 0xF040
  | .xorI _ _ => 0xF080
  | .mvlI _ _ => 0xF0C0
  | .jl _ => 0xF7C0
  | .adtI _ _ => 0xF800
  | .btPlus _ => 0xFF00
  | .adfI _ _ => 0xF840
  | .bfPlus _ => 0xFF40
  | .sbtI _ _ => 0xF880
  | .btMinus _ => 0xFF80
  | .sbfI _ _ => 0xF8C0
  | .bfMinus _ => 0xFFC0

/-- The word of an instruction has the bits that its row of the opcode table fixes. -/
def Statement (i : Instr) : Prop := encode i &&& rowMask i = rowMatch i

/-! The fixed bits of each format (30_encoding.md R61 to R64). -/

theorem packM_row (op : BitVec 3) (ri : Reg) (an : AReg) (s : BitVec 1) (k : Imm5) :
    packM op ri an s k &&& 0xF820 = packWord 0 op 0 0 (s ++ (0 : Imm5)) := by
  rw [show (0xF820 : Word) = packWord 3 7 0 0 ((1 : BitVec 1) ++ (0 : Imm5)) from rfl, packM, packWord_and,
    BitVec.and_append]
  revert op s; simp; decide

theorem packZ_row (op : BitVec 3) (ri : Reg) (fn : BitVec 2) (s : BitVec 1) (k : Imm5) :
    packZ op ri fn s k &&& 0xF8E0 = packWord 1 op 0 fn (s ++ (0 : Imm5)) := by
  rw [show (0xF8E0 : Word) = packWord 3 7 0 3 ((1 : BitVec 1) ++ (0 : Imm5)) from rfl, packZ, packWord_and,
    BitVec.and_append]
  revert op fn s; simp; decide

theorem packR_row (op d : BitVec 3) (fn : BitVec 2) (rj rk : Reg) :
    packR op d fn rj rk &&& 0xF8C0 = packWord 2 op 0 fn 0 := by
  rw [show (0xF8C0 : Word) = packWord 3 7 0 3 0 from rfl, packR, packWord_and]
  revert op fn; simp; decide

theorem packI_row (op : BitVec 3) (ri : Reg) (fn : BitVec 2) (k : Imm5) :
    packI op ri fn k &&& 0xF8E0 = packWord 3 op 0 fn 0 := by
  rw [show (0xF8E0 : Word) = packWord 3 7 0 3 ((1 : BitVec 1) ++ (0 : Imm5)) from rfl, packI, packWord_and,
    BitVec.and_append]
  revert op fn; simp; decide

theorem packJ_row (op : BitVec 3) (fn : BitVec 2) (k : Imm5) :
    packI op .pc fn k &&& 0xFFE0 = packWord 3 op 7 fn 0 := by
  rw [show (0xFFE0 : Word) = packWord 3 7 7 3 ((1 : BitVec 1) ++ (0 : Imm5)) from rfl, packI, packWord_and,
    BitVec.and_append]
  revert op fn; simp [regBits]; decide

/-! One lemma per instruction. -/

theorem nop : Statement .nop := rfl
theorem pfx (k : Imm11) : Statement (.pfx k) := by
  change ((0 : BitVec 5) ++ k : Word) &&& ((31 : BitVec 5) ++ (0 : Imm11)) = 0
  rw [BitVec.and_append]
  simp
theorem hlt : Statement .hlt := rfl
theorem lp (ri : Reg) (rk : Reg) : Statement (.lp ri rk) := by
  cases ri <;> cases rk <;> rfl
theorem cmpML (ri : Reg) (an : AReg) (k : Imm5) : Statement (.cmpML ri an k) := (packM_row ..).trans rfl
theorem movML (ri : Reg) (an : AReg) (k : Imm5) : Statement (.movML ri an k) := (packM_row ..).trans rfl
theorem movMS (ri : Reg) (an : AReg) (k : Imm5) : Statement (.movMS ri an k) := (packM_row ..).trans rfl
theorem addML (ri : Reg) (an : AReg) (k : Imm5) : Statement (.addML ri an k) := (packM_row ..).trans rfl
theorem addMS (ri : Reg) (an : AReg) (k : Imm5) : Statement (.addMS ri an k) := (packM_row ..).trans rfl
theorem subML (ri : Reg) (an : AReg) (k : Imm5) : Statement (.subML ri an k) := (packM_row ..).trans rfl
theorem subMS (ri : Reg) (an : AReg) (k : Imm5) : Statement (.subMS ri an k) := (packM_row ..).trans rfl
theorem andML (ri : Reg) (an : AReg) (k : Imm5) : Statement (.andML ri an k) := (packM_row ..).trans rfl
theorem andMS (ri : Reg) (an : AReg) (k : Imm5) : Statement (.andMS ri an k) := (packM_row ..).trans rfl
theorem adtML (ri : Reg) (an : AReg) (k : Imm5) : Statement (.adtML ri an k) := (packM_row ..).trans rfl
theorem adtMS (ri : Reg) (an : AReg) (k : Imm5) : Statement (.adtMS ri an k) := (packM_row ..).trans rfl
theorem cmpZL (ri : Reg) (k : Imm5) : Statement (.cmpZL ri k) := (packZ_row ..).trans rfl
theorem cpcZL (ri : Reg) (k : Imm5) : Statement (.cpcZL ri k) := (packZ_row ..).trans rfl
theorem movZL (ri : Reg) (k : Imm5) : Statement (.movZL ri k) := (packZ_row ..).trans rfl
theorem movZS (ri : Reg) (k : Imm5) : Statement (.movZS ri k) := (packZ_row ..).trans rfl
theorem setZL (ri : Reg) (k : Imm5) : Statement (.setZL ri k) := (packZ_row ..).trans rfl
theorem setZS (ri : Reg) (k : Imm5) : Statement (.setZS ri k) := (packZ_row ..).trans rfl
theorem sefZL (ri : Reg) (k : Imm5) : Statement (.sefZL ri k) := (packZ_row ..).trans rfl
theorem sefZS (ri : Reg) (k : Imm5) : Statement (.sefZS ri k) := (packZ_row ..).trans rfl
theorem selZL (ri : Reg) (k : Imm5) : Statement (.selZL ri k) := (packZ_row ..).trans rfl
theorem selZS (ri : Reg) (k : Imm5) : Statement (.selZS ri k) := (packZ_row ..).trans rfl
theorem addZL (ri : Reg) (k : Imm5) : Statement (.addZL ri k) := (packZ_row ..).trans rfl
theorem addZS (ri : Reg) (k : Imm5) : Statement (.addZS ri k) := (packZ_row ..).trans rfl
theorem dadZL (ri : Reg) (k : Imm5) : Statement (.dadZL ri k) := (packZ_row ..).trans rfl
theorem dadZS (ri : Reg) (k : Imm5) : Statement (.dadZS ri k) := (packZ_row ..).trans rfl
theorem adcZL (ri : Reg) (k : Imm5) : Statement (.adcZL ri k) := (packZ_row ..).trans rfl
theorem adcZS (ri : Reg) (k : Imm5) : Statement (.adcZS ri k) := (packZ_row ..).trans rfl
theorem dacZL (ri : Reg) (k : Imm5) : Statement (.dacZL ri k) := (packZ_row ..).trans rfl
theorem dacZS (ri : Reg) (k : Imm5) : Statement (.dacZS ri k) := (packZ_row ..).trans rfl
theorem subZL (ri : Reg) (k : Imm5) : Statement (.subZL ri k) := (packZ_row ..).trans rfl
theorem subZS (ri : Reg) (k : Imm5) : Statement (.subZS ri k) := (packZ_row ..).trans rfl
theorem rsbZL (ri : Reg) (k : Imm5) : Statement (.rsbZL ri k) := (packZ_row ..).trans rfl
theorem rsbZS (ri : Reg) (k : Imm5) : Statement (.rsbZS ri k) := (packZ_row ..).trans rfl
theorem sbcZL (ri : Reg) (k : Imm5) : Statement (.sbcZL ri k) := (packZ_row ..).trans rfl
theorem sbcZS (ri : Reg) (k : Imm5) : Statement (.sbcZS ri k) := (packZ_row ..).trans rfl
theorem dscZL (ri : Reg) (k : Imm5) : Statement (.dscZL ri k) := (packZ_row ..).trans rfl
theorem dscZS (ri : Reg) (k : Imm5) : Statement (.dscZS ri k) := (packZ_row ..).trans rfl
theorem andZL (ri : Reg) (k : Imm5) : Statement (.andZL ri k) := (packZ_row ..).trans rfl
theorem andZS (ri : Reg) (k : Imm5) : Statement (.andZS ri k) := (packZ_row ..).trans rfl
theorem orZL (ri : Reg) (k : Imm5) : Statement (.orZL ri k) := (packZ_row ..).trans rfl
theorem orZS (ri : Reg) (k : Imm5) : Statement (.orZS ri k) := (packZ_row ..).trans rfl
theorem xorZL (ri : Reg) (k : Imm5) : Statement (.xorZL ri k) := (packZ_row ..).trans rfl
theorem xorZS (ri : Reg) (k : Imm5) : Statement (.xorZS ri k) := (packZ_row ..).trans rfl
theorem mvlZL (ri : Reg) (k : Imm5) : Statement (.mvlZL ri k) := (packZ_row ..).trans rfl
theorem mvlZS (ri : Reg) (k : Imm5) : Statement (.mvlZS ri k) := (packZ_row ..).trans rfl
theorem adtZL (ri : Reg) (k : Imm5) : Statement (.adtZL ri k) := (packZ_row ..).trans rfl
theorem adtZS (ri : Reg) (k : Imm5) : Statement (.adtZS ri k) := (packZ_row ..).trans rfl
theorem adfZL (ri : Reg) (k : Imm5) : Statement (.adfZL ri k) := (packZ_row ..).trans rfl
theorem adfZS (ri : Reg) (k : Imm5) : Statement (.adfZS ri k) := (packZ_row ..).trans rfl
theorem sbtZL (ri : Reg) (k : Imm5) : Statement (.sbtZL ri k) := (packZ_row ..).trans rfl
theorem sbtZS (ri : Reg) (k : Imm5) : Statement (.sbtZS ri k) := (packZ_row ..).trans rfl
theorem sbfZL (ri : Reg) (k : Imm5) : Statement (.sbfZL ri k) := (packZ_row ..).trans rfl
theorem sbfZS (ri : Reg) (k : Imm5) : Statement (.sbfZS ri k) := (packZ_row ..).trans rfl
theorem sr1R (ri : Reg) (rj : Reg) : Statement (.sr1R ri rj) := (packR_row ..).trans rfl
theorem rr1R (ri : Reg) (rj : Reg) (rk : Reg) : Statement (.rr1R ri rj rk) := (packR_row ..).trans rfl
theorem sr4R (ri : Reg) (rj : Reg) : Statement (.sr4R ri rj) := (packR_row ..).trans rfl
theorem rr4R (ri : Reg) (rj : Reg) (rk : Reg) : Statement (.rr4R ri rj rk) := (packR_row ..).trans rfl
theorem sl1R (ri : Reg) (rj : Reg) : Statement (.sl1R ri rj) := (packR_row ..).trans rfl
theorem rl1R (ri : Reg) (rj : Reg) (rk : Reg) : Statement (.rl1R ri rj rk) := (packR_row ..).trans rfl
theorem sl4R (ri : Reg) (rj : Reg) : Statement (.sl4R ri rj) := (packR_row ..).trans rfl
theorem rl4R (ri : Reg) (rj : Reg) (rk : Reg) : Statement (.rl4R ri rj rk) := (packR_row ..).trans rfl
theorem cmpR (cc : CC) (rj : Reg) (rk : Reg) : Statement (.cmpR cc rj rk) := (packR_row ..).trans rfl
theorem cpcR (cc : CC) (rj : Reg) (rk : Reg) : Statement (.cpcR cc rj rk) := (packR_row ..).trans rfl
theorem movR (ri : Reg) (rk : Reg) : Statement (.movR ri rk) := (packR_row ..).trans rfl
theorem setR (ri : Reg) (rk : Reg) : Statement (.setR ri rk) := (packR_row ..).trans rfl
theorem sefR (ri : Reg) (rk : Reg) : Statement (.sefR ri rk) := (packR_row ..).trans rfl
theorem selR (ri : Reg) (rj : Reg) (rk : Reg) : Statement (.selR ri rj rk) := (packR_row ..).trans rfl
theorem addR (ri : Reg) (rj : Reg) (rk : Reg) : Statement (.addR ri rj rk) := (packR_row ..).trans rfl
theorem dadR (ri : Reg) (rj : Reg) (rk : Reg) : Statement (.dadR ri rj rk) := (packR_row ..).trans rfl
theorem adcR (ri : Reg) (rj : Reg) (rk : Reg) : Statement (.adcR ri rj rk) := (packR_row ..).trans rfl
theorem dacR (ri : Reg) (rj : Reg) (rk : Reg) : Statement (.dacR ri rj rk) := (packR_row ..).trans rfl
theorem subR (ri : Reg) (rj : Reg) (rk : Reg) : Statement (.subR ri rj rk) := (packR_row ..).trans rfl
theorem rsbR (ri : Reg) (rj : Reg) (rk : Reg) : Statement (.rsbR ri rj rk) := (packR_row ..).trans rfl
theorem sbcR (ri : Reg) (rj : Reg) (rk : Reg) : Statement (.sbcR ri rj rk) := (packR_row ..).trans rfl
theorem dscR (ri : Reg) (rj : Reg) (rk : Reg) : Statement (.dscR ri rj rk) := (packR_row ..).trans rfl
theorem andR (ri : Reg) (rj : Reg) (rk : Reg) : Statement (.andR ri rj rk) := (packR_row ..).trans rfl
theorem orR (ri : Reg) (rj : Reg) (rk : Reg) : Statement (.orR ri rj rk) := (packR_row ..).trans rfl
theorem xorR (ri : Reg) (rj : Reg) (rk : Reg) : Statement (.xorR ri rj rk) := (packR_row ..).trans rfl
theorem mvlR (ri : Reg) (rk : Reg) : Statement (.mvlR ri rk) := (packR_row ..).trans rfl
theorem adtR (ri : Reg) (rj : Reg) (rk : Reg) : Statement (.adtR ri rj rk) := (packR_row ..).trans rfl
theorem adfR (ri : Reg) (rj : Reg) (rk : Reg) : Statement (.adfR ri rj rk) := (packR_row ..).trans rfl
theorem sbtR (ri : Reg) (rj : Reg) (rk : Reg) : Statement (.sbtR ri rj rk) := (packR_row ..).trans rfl
theorem sbfR (ri : Reg) (rj : Reg) (rk : Reg) : Statement (.sbfR ri rj rk) := (packR_row ..).trans rfl
theorem cmpI (ri : Reg) (k : Imm5) : Statement (.cmpI ri k) := (packI_row ..).trans rfl
theorem cpcI (ri : Reg) (k : Imm5) : Statement (.cpcI ri k) := (packI_row ..).trans rfl
theorem movI (ri : Reg) (k : Imm5) : Statement (.movI ri k) := (packI_row ..).trans rfl
theorem j (k : Imm5) : Statement (.j k) := (packJ_row ..).trans rfl
theorem setI (ri : Reg) (k : Imm5) : Statement (.setI ri k) := (packI_row ..).trans rfl
theorem sefI (ri : Reg) (k : Imm5) : Statement (.sefI ri k) := (packI_row ..).trans rfl
theorem selI (ri : Reg) (k : Imm5) : Statement (.selI ri k) := (packI_row ..).trans rfl
theorem addI (ri : Reg) (k : Imm5) : Statement (.addI ri k) := (packI_row ..).trans rfl
theorem bPlus (k : Imm5) : Statement (.bPlus k) := (packJ_row ..).trans rfl
theorem dadI (ri : Reg) (k : Imm5) : Statement (.dadI ri k) := (packI_row ..).trans rfl
theorem adcI (ri : Reg) (k : Imm5) : Statement (.adcI ri k) := (packI_row ..).trans rfl
theorem dacI (ri : Reg) (k : Imm5) : Statement (.dacI ri k) := (packI_row ..).trans rfl
theorem subI (ri : Reg) (k : Imm5) : Statement (.subI ri k) := (packI_row ..).trans rfl
theorem bMinus (k : Imm5) : Statement (.bMinus k) := (packJ_row ..).trans rfl
theorem rsbI (ri : Reg) (k : Imm5) : Statement (.rsbI ri k) := (packI_row ..).trans rfl
theorem sbcI (ri : Reg) (k : Imm5) : Statement (.sbcI ri k) := (packI_row ..).trans rfl
theorem dscI (ri : Reg) (k : Imm5) : Statement (.dscI ri k) := (packI_row ..).trans rfl
theorem andI (ri : Reg) (k : Imm5) : Statement (.andI ri k) := (packI_row ..).trans rfl
theorem orI (ri : Reg) (k : Imm5) : Statement (.orI ri k) := (packI_row ..).trans rfl
theorem xorI (ri : Reg) (k : Imm5) : Statement (.xorI ri k) := (packI_row ..).trans rfl
theorem mvlI (ri : Reg) (k : Imm5) : Statement (.mvlI ri k) := (packI_row ..).trans rfl
theorem jl (k : Imm5) : Statement (.jl k) := (packJ_row ..).trans rfl
theorem adtI (ri : Reg) (k : Imm5) : Statement (.adtI ri k) := (packI_row ..).trans rfl
theorem btPlus (k : Imm5) : Statement (.btPlus k) := (packJ_row ..).trans rfl
theorem adfI (ri : Reg) (k : Imm5) : Statement (.adfI ri k) := (packI_row ..).trans rfl
theorem bfPlus (k : Imm5) : Statement (.bfPlus k) := (packJ_row ..).trans rfl
theorem sbtI (ri : Reg) (k : Imm5) : Statement (.sbtI ri k) := (packI_row ..).trans rfl
theorem btMinus (k : Imm5) : Statement (.btMinus k) := (packJ_row ..).trans rfl
theorem sbfI (ri : Reg) (k : Imm5) : Statement (.sbfI ri k) := (packI_row ..).trans rfl
theorem bfMinus (k : Imm5) : Statement (.bfMinus k) := (packJ_row ..).trans rfl

end Sys2Proof.Laws.EncodingRow
end

