-- ==== Sys2Proof/Tests/Slice0.lean ====
section
/-! SUPPORT. Tests: well-formedness, decoding of words written out from the encodings of 30_encoding.md and
spec/opcode_table.json, one step of each mnemonic with the numbers of 95_test_vectors.md, and a witness for the hypotheses
of each statement. -/

namespace Sys2Proof.Tests

open Sys2Proof.Machine

/-! ## Well-formedness (log 29) -/

theorem test_wf_pfx_zero : (Instr.pfx 0).wf = false ∧ (Instr.pfx 1).wf = true := by decide

theorem test_wf_imm_pc :
    ([.cmpI .pc 0, .cpcI .pc 0, .movI .pc 0, .setI .pc 0, .sefI .pc 0, .selI .pc 0, .addI .pc 0, .dadI .pc 0, .adcI .pc 0, .dacI .pc 0, .subI .pc 0] : List Instr).all (fun i => !i.wf) = true ∧
    ([.rsbI .pc 0, .sbcI .pc 0, .dscI .pc 0, .andI .pc 0, .orI .pc 0, .xorI .pc 0, .mvlI .pc 0, .adtI .pc 0, .adfI .pc 0, .sbtI .pc 0, .sbfI .pc 0] : List Instr).all (fun i => !i.wf) = true := by
  decide

theorem test_wf_imm_gpr : (Instr.cmpI .r6 31).wf = true ∧ (Instr.cmpR .gt .pc .pc).wf = true ∧ (Instr.movML .pc .a2 0).wf = true := by
  decide

/-! ## Every constructor is read from a word of its row, written out bit by bit -/

theorem test_decode_special :
    decode 0b0000000000000000#16 = .ok (.nop) ∧
    decode 0b0000010110011101#16 = .ok (.pfx 1437) ∧
    decode 0b0000111100011111#16 = .ok (.hlt) ∧
    decode 0b0001100100011110#16 = .ok (.lp .r1 .r6) := by
  decide

theorem test_decode_indexed :
    decode 0b0001010101010011#16 = .ok (.cmpML .r5 .a0 19) ∧
    decode 0b0001111010011010#16 = .ok (.movML .r6 .a1 26) ∧
    decode 0b0001100011100001#16 = .ok (.movMS .r0 .a2 1) ∧
    decode 0b0010000101001000#16 = .ok (.addML .r1 .a0 8) ∧
    decode 0b0010001010101111#16 = .ok (.addMS .r2 .a1 15) ∧
    decode 0b0010101111010110#16 = .ok (.subML .r3 .a2 22) ∧
    decode 0b0010110001111101#16 = .ok (.subMS .r4 .a0 29) ∧
    decode 0b0011010110000100#16 = .ok (.andML .r5 .a1 4) ∧
    decode 0b0011011011101011#16 = .ok (.andMS .r6 .a2 11) ∧
    decode 0b0011100001010010#16 = .ok (.adtML .r0 .a0 18) ∧
    decode 0b0011100110111001#16 = .ok (.adtMS .r1 .a1 25) := by
  decide

theorem test_decode_direct_load_1 :
    decode 0b0101010100010011#16 = .ok (.cmpZL .r5 19) ∧
    decode 0b0101011010011010#16 = .ok (.cpcZL .r6 26) ∧
    decode 0b0101100000000001#16 = .ok (.movZL .r0 1) ∧
    decode 0b0101100101001000#16 = .ok (.setZL .r1 8) ∧
    decode 0b0101101010001111#16 = .ok (.sefZL .r2 15) ∧
    decode 0b0101101111010110#16 = .ok (.selZL .r3 22) ∧
    decode 0b0110010000011101#16 = .ok (.addZL .r4 29) ∧
    decode 0b0110010101000100#16 = .ok (.dadZL .r5 4) ∧
    decode 0b0110011010001011#16 = .ok (.adcZL .r6 11) ∧
    decode 0b0110000011010010#16 = .ok (.dacZL .r0 18) ∧
    decode 0b0110100100011001#16 = .ok (.subZL .r1 25) ∧
    decode 0b0110101001000000#16 = .ok (.rsbZL .r2 0) := by
  decide

theorem test_decode_direct_load_2 :
    decode 0b0110101110010110#16 = .ok (.sbcZL .r3 22) ∧
    decode 0b0110110011011101#16 = .ok (.dscZL .r4 29) ∧
    decode 0b0111010100000100#16 = .ok (.andZL .r5 4) ∧
    decode 0b0111011001001011#16 = .ok (.orZL .r6 11) ∧
    decode 0b0111000010010010#16 = .ok (.xorZL .r0 18) ∧
    decode 0b0111000111011001#16 = .ok (.mvlZL .r1 25) ∧
    decode 0b0111101000000000#16 = .ok (.adtZL .r2 0) ∧
    decode 0b0111101101000111#16 = .ok (.adfZL .r3 7) ∧
    decode 0b0111110010001110#16 = .ok (.sbtZL .r4 14) ∧
    decode 0b0111110111010101#16 = .ok (.sbfZL .r5 21) := by
  decide

theorem test_decode_direct_store_1 :
    decode 0b0101110100110011#16 = .ok (.movZS .r5 19) ∧
    decode 0b0101111001111010#16 = .ok (.setZS .r6 26) ∧
    decode 0b0101100010100001#16 = .ok (.sefZS .r0 1) ∧
    decode 0b0101100111101000#16 = .ok (.selZS .r1 8) ∧
    decode 0b0110001000101111#16 = .ok (.addZS .r2 15) ∧
    decode 0b0110001101110110#16 = .ok (.dadZS .r3 22) ∧
    decode 0b0110010010111101#16 = .ok (.adcZS .r4 29) ∧
    decode 0b0110010111100100#16 = .ok (.dacZS .r5 4) ∧
    decode 0b0110111000101011#16 = .ok (.subZS .r6 11) ∧
    decode 0b0110100001110010#16 = .ok (.rsbZS .r0 18) ∧
    decode 0b0110100110111001#16 = .ok (.sbcZS .r1 25) ∧
    decode 0b0110101011100000#16 = .ok (.dscZS .r2 0) := by
  decide

theorem test_decode_direct_store_2 :
    decode 0b0111001100110110#16 = .ok (.andZS .r3 22) ∧
    decode 0b0111010001111101#16 = .ok (.orZS .r4 29) ∧
    decode 0b0111010110100100#16 = .ok (.xorZS .r5 4) ∧
    decode 0b0111011011101011#16 = .ok (.mvlZS .r6 11) ∧
    decode 0b0111100000110010#16 = .ok (.adtZS .r0 18) ∧
    decode 0b0111100101111001#16 = .ok (.adfZS .r1 25) ∧
    decode 0b0111101010100000#16 = .ok (.sbtZS .r2 0) ∧
    decode 0b0111101111100111#16 = .ok (.sbfZS .r3 7) := by
  decide

theorem test_decode_register_1 :
    decode 0b1000010100001111#16 = .ok (.sr1R .r5 .r1) ∧
    decode 0b1000011001100000#16 = .ok (.rr1R .r6 .r4 .r0) ∧
    decode 0b1000000010111111#16 = .ok (.sr4R .r0 .pc) ∧
    decode 0b1000000111010100#16 = .ok (.rr4R .r1 .r2 .r4) ∧
    decode 0b1000101000101111#16 = .ok (.sl1R .r2 .r5) ∧
    decode 0b1000101101000000#16 = .ok (.rl1R .r3 .r0 .r0) ∧
    decode 0b1000110010011111#16 = .ok (.sl4R .r4 .r3) ∧
    decode 0b1000110111110100#16 = .ok (.rl4R .r5 .r6 .r4) ∧
    decode 0b1001000000001110#16 = .ok (.cmpR .eq .r1 .r6) ∧
    decode 0b1001010110100000#16 = .ok (.cpcR .lt .r4 .r0) ∧
    decode 0b1001100100111010#16 = .ok (.movR .r1 .r2) ∧
    decode 0b1001101001111100#16 = .ok (.setR .r2 .r4) := by
  decide

theorem test_decode_register_2 :
    decode 0b1001101110111000#16 = .ok (.sefR .r3 .r0) ∧
    decode 0b1001110011011010#16 = .ok (.selR .r4 .r3 .r2) ∧
    decode 0b1010010100110100#16 = .ok (.addR .r5 .r6 .r4) ∧
    decode 0b1010011001001110#16 = .ok (.dadR .r6 .r1 .r6) ∧
    decode 0b1010000010100000#16 = .ok (.adcR .r0 .r4 .r0) ∧
    decode 0b1010000111111010#16 = .ok (.dacR .r1 .pc .r2) ∧
    decode 0b1010101000010100#16 = .ok (.subR .r2 .r2 .r4) ∧
    decode 0b1010101101101110#16 = .ok (.rsbR .r3 .r5 .r6) ∧
    decode 0b1010110010000000#16 = .ok (.sbcR .r4 .r0 .r0) ∧
    decode 0b1010110111011010#16 = .ok (.dscR .r5 .r3 .r2) ∧
    decode 0b1011011000110100#16 = .ok (.andR .r6 .r6 .r4) ∧
    decode 0b1011000001001110#16 = .ok (.orR .r0 .r1 .r6) := by
  decide

theorem test_decode_register_3 :
    decode 0b1011000110111010#16 = .ok (.xorR .r1 .pc .r2) ∧
    decode 0b1011001011111100#16 = .ok (.mvlR .r2 .r4) ∧
    decode 0b1011101100101110#16 = .ok (.adtR .r3 .r5 .r6) ∧
    decode 0b1011110001000000#16 = .ok (.adfR .r4 .r0 .r0) ∧
    decode 0b1011110110011010#16 = .ok (.sbtR .r5 .r3 .r2) ∧
    decode 0b1011111011110100#16 = .ok (.sbfR .r6 .r6 .r4) := by
  decide

theorem test_decode_immediate_1 :
    decode 0b1101010100010011#16 = .ok (.cmpI .r5 19) ∧
    decode 0b1101011010011010#16 = .ok (.cpcI .r6 26) ∧
    decode 0b1101100000000001#16 = .ok (.movI .r0 1) ∧
    decode 0b1101100101001000#16 = .ok (.setI .r1 8) ∧
    decode 0b1101101010001111#16 = .ok (.sefI .r2 15) ∧
    decode 0b1101101111010110#16 = .ok (.selI .r3 22) ∧
    decode 0b1110010000011101#16 = .ok (.addI .r4 29) ∧
    decode 0b1110010101000100#16 = .ok (.dadI .r5 4) ∧
    decode 0b1110011010001011#16 = .ok (.adcI .r6 11) ∧
    decode 0b1110000011010010#16 = .ok (.dacI .r0 18) ∧
    decode 0b1110100100011001#16 = .ok (.subI .r1 25) ∧
    decode 0b1110101001000000#16 = .ok (.rsbI .r2 0) := by
  decide

theorem test_decode_immediate_2 :
    decode 0b1110101110010110#16 = .ok (.sbcI .r3 22) ∧
    decode 0b1110110011011101#16 = .ok (.dscI .r4 29) ∧
    decode 0b1111010100000100#16 = .ok (.andI .r5 4) ∧
    decode 0b1111011001001011#16 = .ok (.orI .r6 11) ∧
    decode 0b1111000010010010#16 = .ok (.xorI .r0 18) ∧
    decode 0b1111000111011001#16 = .ok (.mvlI .r1 25) ∧
    decode 0b1111101000000000#16 = .ok (.adtI .r2 0) ∧
    decode 0b1111101101000111#16 = .ok (.adfI .r3 7) ∧
    decode 0b1111110010001110#16 = .ok (.sbtI .r4 14) ∧
    decode 0b1111110111010101#16 = .ok (.sbfI .r5 21) := by
  decide

theorem test_decode_branch :
    decode 0b1101111100010011#16 = .ok (.j 19) ∧
    decode 0b1110011100011010#16 = .ok (.bPlus 26) ∧
    decode 0b1110111100000001#16 = .ok (.bMinus 1) ∧
    decode 0b1111011111001000#16 = .ok (.jl 8) ∧
    decode 0b1111111100001111#16 = .ok (.btPlus 15) ∧
    decode 0b1111111101010110#16 = .ok (.bfPlus 22) ∧
    decode 0b1111111110011101#16 = .ok (.btMinus 29) ∧
    decode 0b1111111111000100#16 = .ok (.bfMinus 4) := by
  decide

/-- One word of each row of the table of undocumented encodings (30_encoding.md R74). -/
theorem test_undocumented :
    ([0x0820, 0x0840, 0x1000, 0x1060, 0x1820, 0x2000, 0x4000, 0x5040, 0x5020] : List Word).all
      (fun w => decode w == .error (.undocumented w) && Word.undocumentedRow w) = true ∧
    ([0x9040, 0xD820, 0xC000, 0xD040, 0xD700, 0xDF40, 0xE780, 0xEFC0, 0xF740] : List Word).all
      (fun w => decode w == .error (.undocumented w) && Word.undocumentedRow w) = true := by decide

theorem test_encode : encode (.addR .r0 .r1 .r2) = 0xA00A ∧ encode (.movR .pc .r6) = 0x9F36 ∧ encode .hlt = 0x0800 ∧
    encode (.cmpR .lt .r0 .r2) = 0x9502 ∧ encode (.sr1R .r2 .r2) = 0x8212 := by decide

/-! ## The host's two entries -/

theorem test_decodeTableWord : decodeTableWord 16 0xE002 = some (.addI .r0 2) ∧ decodeTableWord 16 0x0820 = none ∧
    decodeTableWord 8 0xE002 = some (.pfx 2) := by decide

/-- What the state after an answer satisfies; false of a fault or a refusal. -/
def after (o : Answer) (p : State → Bool) : Bool :=
  match o with
  | .next t => p t
  | _ => false

theorem test_withFetchWord_first : after (step (State.reset.withFetchWord 16 0xD805)) (fun t => t.r0 == 5 && t.pc == 1) = true := by
  decide

theorem test_loadProg : ((State.reset.loadProg 0 [0xD805, 0x0800]).prog, (State.reset.loadData 3 [7, 8]).data) =
    ([(0, 0xD805), (1, 0x0800)], [(3, 7), (4, 8)]) := by decide

/-! ## One step of each mnemonic, with the numbers of 95_test_vectors.md -/

/-- A machine at `pc` whose next word is `w`, with these registers, flags and data. -/
def at_ (w pc : Word) (r0 r1 r2 r4 r6 : Word) (t c z : Bool) (data : Memory) : State :=
  { State.reset with
    r0 := r0, r1 := r1, r2 := r2, r4 := r4, r6 := r6, pc := pc, t := t, c := c, z := z, data := data,
    prog := [(pc.toNat, w)] }

/-- V1: `nop`. -/
theorem test_V1_nop : after (step (at_ 0x0000 0x0010 0 0 0 0 0 false false false []))
    (fun t => !t.t && !t.c && !t.z && t.pc == 0x0011) = true := by decide

/-- V2: `pfx 8`. -/
theorem test_V2_pfx : after (step (at_ 0x0008 0x0010 0 0 0 0 0 false false false []))
    (fun t => !t.t && !t.c && !t.z && t.pc == 0x0011 && t.pfr == 8) = true := by decide

/-- V13: `hlt`. -/
theorem test_V13_hlt : after (step (at_ 0x0800 0x0010 0 0 0 0 0 true true true []))
    (fun t => t.t && t.c && t.z && t.pc == 0x0011 && t.halted) = true := by decide

/-- V15: `add 2, r0`. -/
theorem test_V15_add : after (step (at_ 0xE002 0x0010 0xFFFE 0 0 0 0 false false false []))
    (fun t => t.r0 == 0x0000 && t.t && t.c && t.z && t.pc == 0x0011) = true := by decide

/-- V23: `add [a2, 0], r0`. -/
theorem test_V23_add : after (step (at_ 0x20C0 0x0010 1 0 0 0 0xFFFF false false false [(65535, 0x0005)]))
    (fun t => t.r0 == 0x0006 && !t.t && !t.c && !t.z && t.pc == 0x0011) = true := by decide

/-- V20: `add r0, [a0, 4]`. -/
theorem test_V20_add : after (step (at_ 0x2064 0x0010 1 0 0 0x0020 0 false false false [(36, 0xFFFF)]))
    (fun t => t.data.read 36 == some 0x0000 && t.t && t.c && t.z && t.pc == 0x0011) = true := by decide

/-- V27: `adc 0, r1`. -/
theorem test_V27_adc : after (step (at_ 0xE180 0x0010 0 7 0 0 0 false true true []))
    (fun t => t.r1 == 0x0008 && !t.t && !t.c && !t.z && t.pc == 0x0011) = true := by decide

/-- V31: `dad r1, r2, r0`. -/
theorem test_V31_dad : after (step (at_ 0xA04A 0x0010 0 0x9999 1 0 0 false false false []))
    (fun t => t.r0 == 0x0000 && t.t && t.c && t.z && t.pc == 0x0011) = true := by decide

/-- V29: `adc r0, [3]`. -/
theorem test_V29_adc : after (step (at_ 0x60A3 0x0010 1 0 0 0 0 false true true [(3, 0x0002)]))
    (fun t => t.data.read 3 == some 0x0004 && !t.t && !t.c && !t.z && t.pc == 0x0011) = true := by decide

/-- V36: `dac r1, r2, r0`. -/
theorem test_V36_dac : after (step (at_ 0xA0CA 0x0010 0 0x1234 0x8765 0 0 false true true []))
    (fun t => t.r0 == 0x0000 && t.t && t.c && t.z && t.pc == 0x0011) = true := by decide

/-- V39: `sub 1, r0`. -/
theorem test_V39_sub : after (step (at_ 0xE801 0x0010 0 0 0 0 0 false false false []))
    (fun t => t.r0 == 0xFFFF && !t.t && !t.c && !t.z && t.pc == 0x0011) = true := by decide

/-- V41: `sub r1, r2, r0`. -/
theorem test_V41_sub : after (step (at_ 0xA80A 0x0010 0 5 7 0 0 false false false []))
    (fun t => t.r0 == 0xFFFE && !t.t && !t.c && !t.z && t.pc == 0x0011) = true := by decide

/-- V44: `sub r0, [3]`. -/
theorem test_V44_sub : after (step (at_ 0x6823 0x0010 0x000A 0 0 0 0 false false false [(3, 0x0004)]))
    (fun t => t.data.read 3 == some 0x0006 && !t.t && t.c && !t.z && t.pc == 0x0011) = true := by decide

/-- V49: `rsb r1, r2, r0`. -/
theorem test_V49_rsb : after (step (at_ 0xA84A 0x0010 0 5 7 0 0 false false false []))
    (fun t => t.r0 == 0x0002 && !t.t && t.c && !t.z && t.pc == 0x0011) = true := by decide

/-- V51: `rsb r0, [3]`. -/
theorem test_V51_rsb : after (step (at_ 0x6863 0x0010 0x000A 0 0 0 0 false false false [(3, 0x0004)]))
    (fun t => t.data.read 3 == some 0xFFFA && !t.t && !t.c && !t.z && t.pc == 0x0011) = true := by decide

/-- V54: `sbc 1, r0`. -/
theorem test_V54_sbc : after (step (at_ 0xE881 0x0010 1 0 0 0 0 false true false []))
    (fun t => t.r0 == 0x0000 && !t.t && t.c && !t.z && t.pc == 0x0011) = true := by decide

/-- V59: `dsc r1, r2, r0`. -/
theorem test_V59_dsc : after (step (at_ 0xA8CA 0x0010 0 0 1 0 0 false true true []))
    (fun t => t.r0 == 0x9999 && !t.t && !t.c && !t.z && t.pc == 0x0011) = true := by decide

/-- V62: `dsc r0, [3]`. -/
theorem test_V62_dsc : after (step (at_ 0x68E3 0x0010 0x0100 0 0 0 0 false true true [(3, 0x0001)]))
    (fun t => t.data.read 3 == some 0x0099 && !t.t && t.c && !t.z && t.pc == 0x0011) = true := by decide

/-- V64: `and r1, r2, r0`. -/
theorem test_V64_and : after (step (at_ 0xB00A 0x0010 0 0xF0F0 0x0F0F 0 0 false true false []))
    (fun t => t.r0 == 0x0000 && t.t && !t.c && t.z && t.pc == 0x0011) = true := by decide

/-- V66: `and r0, [a0, 0]`. -/
theorem test_V66_and : after (step (at_ 0x3060 0x0010 0xFF00 0 0 0x0040 0 false false false [(64, 0x1234)]))
    (fun t => t.data.read 64 == some 0x1200 && !t.t && !t.c && !t.z && t.pc == 0x0011) = true := by decide

/-- V69: `or 0, r0`. -/
theorem test_V69_or : after (step (at_ 0xF040 0x0010 0x1234 0 0 0 0 false true false []))
    (fun t => t.r0 == 0x1234 && !t.t && !t.c && !t.z && t.pc == 0x0011) = true := by decide

/-- V78: `xor r0, [3]`. -/
theorem test_V78_xor : after (step (at_ 0x70A3 0x0010 0x00FF 0 0 0 0 false false false [(3, 0x0F0F)]))
    (fun t => t.data.read 3 == some 0x0FF0 && !t.t && !t.c && !t.z && t.pc == 0x0011) = true := by decide

/-- V79: `sr1 r2, r2`. -/
theorem test_V79_sr1 : after (step (at_ 0x8212 0x0010 0 0 5 0 0 false false false []))
    (fun t => t.r2 == 0x0002 && t.t && t.c && t.pc == 0x0011) = true := by decide

/-- V83: `sr4 r1, r1`. -/
theorem test_V83_sr4 : after (step (at_ 0x8189 0x0010 0 0x123F 0 0 0 false false false []))
    (fun t => t.r1 == 0x0123 && t.t && t.c && t.pc == 0x0011) = true := by decide

/-- V84: `sl1 r1, r1`. -/
theorem test_V84_sl1 : after (step (at_ 0x8909 0x0010 0 0x8001 0 0 0 false false false []))
    (fun t => t.r1 == 0x0002 && t.t && t.c && t.pc == 0x0011) = true := by decide

/-- V87: `sl4 r0, r0`. -/
theorem test_V87_sl4 : after (step (at_ 0x8880 0x0010 0x1ABC 0 0 0 0 false false false []))
    (fun t => t.r0 == 0xABC0 && t.t && t.c && t.pc == 0x0011) = true := by decide

/-- V89: `rr1 r0, r1, r0`. -/
theorem test_V89_rr1 : after (step (at_ 0x8041 0x0010 3 2 0 0 0 false false false []))
    (fun t => t.r0 == 0x0001 && t.t && t.c && t.pc == 0x0011) = true := by decide

/-- V90: `rr4 r0, r1, r0`. -/
theorem test_V90_rr4 : after (step (at_ 0x80C1 0x0010 0x1234 0xABCD 0 0 0 false false false []))
    (fun t => t.r0 == 0xD123 && t.t && t.c && t.pc == 0x0011) = true := by decide

/-- V92: `rl1 r1, r0, r1`. -/
theorem test_V92_rl1 : after (step (at_ 0x8948 0x0010 0x8000 0x4000 0 0 0 false false false []))
    (fun t => t.r1 == 0x8001 && !t.t && !t.c && t.pc == 0x0011) = true := by decide

/-- V95: `rl4 r1, r0, r1`. -/
theorem test_V95_rl4 : after (step (at_ 0x89C8 0x0010 0xABCD 0x1234 0 0 0 false false false []))
    (fun t => t.r1 == 0x234A && t.t && t.c && t.pc == 0x0011) = true := by decide

/-- V115: `cmp.lt r0, r2`. -/
theorem test_V115_cmp_lt : after (step (at_ 0x9502 0x0010 0x8000 0 1 0 0 false false false []))
    (fun t => t.t && t.c && !t.z && t.pc == 0x0011) = true := by decide

/-- V117: `cmp.ge r0, r2`. -/
theorem test_V117_cmp_ge : after (step (at_ 0x9402 0x0010 1 0 0x8000 0 0 false false false []))
    (fun t => t.t && !t.c && !t.z && t.pc == 0x0011) = true := by decide

/-- V124: `cmp.eq [5], r0`. -/
theorem test_V124_cmp_eq : after (step (at_ 0x5005 0x0010 0x1111 0 0 0 0 false false false [(5, 0x2222)]))
    (fun t => !t.t && !t.c && !t.z && t.pc == 0x0011) = true := by decide

/-- V126: `cpc.eq [5], r0`. -/
theorem test_V126_cpc_eq : after (step (at_ 0x5085 0x0010 0x1111 0 0 0 0 false true false [(5, 0x1111)]))
    (fun t => !t.t && t.c && !t.z && t.pc == 0x0011) = true := by decide

/-- V139: `mov 5, r0`. -/
theorem test_V139_mov : after (step (at_ 0xD805 0x0010 0 0 0 0 0 true true true []))
    (fun t => t.r0 == 0x0005 && t.t && t.c && t.z && t.pc == 0x0011) = true := by decide

/-- V141: `mov pc, r0`. -/
theorem test_V141_mov : after (step (at_ 0x983F 0x0010 0 0 0 0 0 false false false []))
    (fun t => t.r0 == 0x0010 && !t.t && !t.c && !t.z && t.pc == 0x0011) = true := by decide

/-- V143: `mov r0, [a0, 0]`. -/
theorem test_V143_mov : after (step (at_ 0x1860 0x0010 0x002A 0 0 0x0065 0 false false false []))
    (fun t => t.data.read 101 == some 0x002A && !t.t && !t.c && !t.z && t.pc == 0x0011) = true := by decide

/-- V149: `lp [pc], r0`. -/
theorem test_V149_lp : after (step (at_ 0x1807 0x0010 0 0 0 0 0 false false false []))
    (fun t => t.r0 == 0x1807 && !t.t && !t.c && !t.z && t.pc == 0x0011) = true := by decide

/-- V157: `set r0, [3]`. -/
theorem test_V157_set : after (step (at_ 0x5863 0x0010 0xAAAA 0 0 0 0 false false false [(3, 0x7777)]))
    (fun t => t.data.read 3 == some 0x0000 && !t.t && !t.c && !t.z && t.pc == 0x0011) = true := by decide

/-- V162: `sef r0, [3]`. -/
theorem test_V162_sef : after (step (at_ 0x58A3 0x0010 0xAAAA 0 0 0 0 true false false [(3, 0x7777)]))
    (fun t => t.data.read 3 == some 0x0000 && t.t && !t.c && !t.z && t.pc == 0x0011) = true := by decide

/-- V165: `sel r1, r0, r0`. -/
theorem test_V165_sel : after (step (at_ 0x98C8 0x0010 0xAAAA 0xBBBB 0 0 0 true false false []))
    (fun t => t.r0 == 0xAAAA && t.t && !t.c && !t.z && t.pc == 0x0011) = true := by decide

/-- V170: `sel r0, [3]`. -/
theorem test_V170_sel : after (step (at_ 0x58E3 0x0010 0xAAAA 0 0 0 0 false false false [(3, 0x7777)]))
    (fun t => t.data.read 3 == some 0x7777 && !t.t && !t.c && !t.z && t.pc == 0x0011) = true := by decide

/-- V172: `adt r1, [a0, 0]`. -/
theorem test_V172_adt : after (step (at_ 0x3960 0x0010 0x000A 4 7 0x0064 0 true true false [(3, 0x0004), (100, 0x00F0)]))
    (fun t => t.data.read 100 == some 0x00F4 && t.t && t.c && !t.z && t.pc == 0x0011) = true := by decide

/-- V173: `adt r0, r1, r0`. -/
theorem test_V173_adt : after (step (at_ 0xB801 0x0010 0x000A 4 7 0x0064 0 false true false [(3, 0x0004), (100, 0x00F0)]))
    (fun t => !t.t && t.c && !t.z && t.pc == 0x0011) = true := by decide

/-- V184: `adf r0, [3]`. -/
theorem test_V184_adf : after (step (at_ 0x7863 0x0010 0x000A 4 7 0x0064 0 false true false [(3, 0x0004), (100, 0x00F0)]))
    (fun t => t.data.read 3 == some 0x000E && !t.t && t.c && !t.z && t.pc == 0x0011) = true := by decide

/-- V189: `sbt r0, [3]`. -/
theorem test_V189_sbt : after (step (at_ 0x78A3 0x0010 0x000A 4 7 0x0064 0 true true false [(3, 0x0004), (100, 0x00F0)]))
    (fun t => t.data.read 3 == some 0x0006 && t.t && t.c && !t.z && t.pc == 0x0011) = true := by decide

/-- V191: `sbf r1, r2, r0`. -/
theorem test_V191_sbf : after (step (at_ 0xB8CA 0x0010 0x000A 4 7 0x0064 0 true true false [(3, 0x0004), (100, 0x00F0)]))
    (fun t => t.t && t.c && !t.z && t.pc == 0x0011) = true := by decide

/-- V195: `j 5`. -/
theorem test_V195_j : after (step (at_ 0xDF05 0x0020 0 0 0 0 0 true false true []))
    (fun t => t.t && !t.c && t.z && t.pc == 0x0005) = true := by decide

/-- V199: `b+ 4`. -/
theorem test_V199_b_plus : after (step (at_ 0xE704 0xFFFE 0 0 0 0 0 false false false []))
    (fun t => !t.t && t.c && !t.z && t.pc == 0x0002) = true := by decide

/-- V203: `b- 12`. -/
theorem test_V203_b_minus : after (step (at_ 0xEF0C 0x000A 0 0 0 0 0 false false false []))
    (fun t => !t.t && !t.c && !t.z && t.pc == 0xFFFE) = true := by decide

/-- V204: `bt+ 5`. -/
theorem test_V204_bt_plus : after (step (at_ 0xFF05 0x0010 0 0 0 0 0 true true false []))
    (fun t => t.t && t.c && !t.z && t.pc == 0x0015) = true := by decide

/-- V209: `bf+ 5`. -/
theorem test_V209_bf_plus : after (step (at_ 0xFF45 0x0010 0 0 0 0 0 false true false []))
    (fun t => !t.t && t.c && !t.z && t.pc == 0x0015) = true := by decide

/-- V206: `bt- 5`. -/
theorem test_V206_bt_minus : after (step (at_ 0xFF85 0x0010 0 0 0 0 0 true true false []))
    (fun t => t.t && t.c && !t.z && t.pc == 0x000B) = true := by decide

/-- V211: `bf- 5`. -/
theorem test_V211_bf_minus : after (step (at_ 0xFFC5 0x0010 0 0 0 0 0 false true false []))
    (fun t => !t.t && t.c && !t.z && t.pc == 0x000B) = true := by decide

/-- V214: `jl 8`. -/
theorem test_V214_jl : after (step (at_ 0xF7C8 0xFFFF 0 0 0 0 0x1111 false false false []))
    (fun t => t.r6 == 0x0000 && !t.t && !t.c && !t.z && t.pc == 0x0008) = true := by decide

/-- V217: `mvl r1, [4]`. -/
theorem test_V217_mvl : after (step (at_ 0x71E4 7 0 0x0030 0 0 0 false false false []))
    (fun t => t.r6 == 0x0008 && t.data.read 4 == some 0x0030 && !t.t && !t.c && !t.z && t.pc == 0x0008) = true := by decide

/-- V219: `mvl 9, r6`. -/
theorem test_V219_mvl : after (step (at_ 0xF6C9 7 0 0 0 0 0 false false false []))
    (fun t => t.r6 == 0x0009 && !t.t && !t.c && !t.z && t.pc == 0x0008) = true := by decide

/-- V220: `mvl r6, pc`. -/
theorem test_V220_mvl : after (step (at_ 0xB7F6 7 0 0 0 0 0x0099 false false false []))
    (fun t => t.r6 == 0x0008 && !t.t && !t.c && !t.z && t.pc == 0x0008) = true := by decide

/-- V224: `add r0, r1, pc`. -/
theorem test_V224_add : after (step (at_ 0xA701 0x0010 0x0100 3 0 0 0 false false false []))
    (fun t => !t.t && !t.c && !t.z && t.pc == 0x0103) = true := by decide

/-- V226: `add pc, [4]`. -/
theorem test_V226_add : after (step (at_ 0x6724 0x0010 0 0 0 0 0 false false false [(4, 0x0001)]))
    (fun t => t.data.read 4 == some 0x0011 && !t.t && !t.c && !t.z && t.pc == 0x0011) = true := by decide

/-- A step of a halted machine leaves it as it is; the key restarts it. -/
theorem test_halted_key : after (step { State.reset with halted := true }) (fun t => t == { State.reset with halted := true }) = true ∧
    hostAct .keyPressed { State.reset with halted := true } = State.reset := by decide

/-- Unwritten memory: a fetch, and a load, fault by name. -/
theorem test_unwritten : step State.reset = .fault (.uninitialised .prog 0) ∧
    step (State.reset.withFetchWord 16 0x5807) = .fault (.uninitialised .data 7) ∧
    step (State.reset.withFetchWord 16 0x0820) = .fault (.undocumented 0x0820) := by
  exact ⟨rfl, rfl, rfl⟩
/-! ## Witnesses: states and operands that meet the hypotheses of each statement -/

/-- A running machine with some memory words written, at both ends of both memories. -/
def mem : State :=
  { State.reset with
    r0 := 10, r1 := 4, r4 := 0xFFF0, r5 := 0xFFFF, r6 := 3,
    data := [(0, 0x1999), (3, 4), (15, 0x00F0), (31, 7), (65535, 0x000A)], prog := [(0, 0xD805), (65535, 0xBEEF)] }

/-- The address is installed and its word has been written. -/
abbrev Readable (s : State) (a : Addr) (m : Word) : Prop :=
  (s.ea a).toNat < s.dataWords ∧ s.readData (s.ea a) = .ok m

/-- Loads and stores at the ends of what the forms reach: direct 0, 31 and 65535, indexed with and without a wrap. -/
abbrev MemoryForms (s : State) : Prop :=
  Readable s (.direct 0) 0x1999 ∧ Readable s (.direct 31) 7 ∧ Readable { s with pfr := 0x7FF } (.direct 31) 0x000A ∧
  Readable s (.indexed .a0 31) 0x00F0 ∧ Readable s (.indexed .a1 0) 0x000A ∧ Readable s (.indexed .a2 0) 4

theorem memory_forms : MemoryForms mem := by decide

/-- The same with T set and with T clear. -/
theorem memory_forms_T : MemoryForms { mem with t := true } ∧ whenT true { mem with t := true } ∧
    MemoryForms { mem with t := false } ∧ whenT false { mem with t := false } := by
  refine ⟨?_, rfl, ?_, rfl⟩ <;> decide

theorem witness_AddInEveryForm : MemoryForms mem := memory_forms
theorem witness_SubInEveryForm : MemoryForms mem := memory_forms
theorem witness_RsbInEveryForm : MemoryForms mem := memory_forms
theorem witness_AdcInEveryForm : MemoryForms mem := memory_forms
theorem witness_SbcInEveryForm : MemoryForms mem := memory_forms
theorem witness_BitwiseInEveryForm : MemoryForms mem := memory_forms
theorem witness_CompareForEquality : MemoryForms mem := memory_forms
theorem witness_CompareWithCarry : MemoryForms mem := memory_forms
theorem witness_MovInEveryForm : MemoryForms mem := memory_forms
theorem witness_MoveAndLink : MemoryForms mem := memory_forms

theorem witness_BcdAddOnDecimals : MemoryForms mem ∧ IsDecimal 0x1999 1999 ∧ IsDecimal (mem.readReg .r1) 4 ∧
    IsDecimal (mem.imm16 9) 9 ∧ IsDecimal 0x9999 9999 ∧ IsDecimal 0 0 :=
  ⟨memory_forms, ⟨1, 9, 9, 9, by decide⟩, ⟨0, 0, 0, 4, by decide⟩, ⟨0, 0, 0, 9, by decide⟩, ⟨9, 9, 9, 9, by decide⟩,
    ⟨0, 0, 0, 0, by decide⟩⟩

theorem witness_BcdSubtractOnDecimals : MemoryForms mem ∧ IsDecimal 0x1999 1999 ∧ IsDecimal (mem.readReg .r1) 4 ∧
    IsDecimal (mem.imm16 9) 9 ∧ IsDecimal 0x9999 9999 ∧ IsDecimal 0 0 := witness_BcdAddOnDecimals

theorem witness_BcdOpenResultCompletes : MemoryForms mem ∧ mem.readReg .r0 = 0x000A ∧
    ¬ (∃ x y, IsDecimal 0x000A x ∧ IsDecimal 0x1999 y) ∧ ¬ (∃ x y, IsDecimal 0x1999 x ∧ IsDecimal 0x000A y) := by
  have h : ∀ x, ¬ IsDecimal 0x000A x := by
    rintro x ⟨d3, d2, d1, d0, h3, h2, h1, h0, hw, -⟩
    have : (0x000A : Word).toNat = 10 := rfl
    omega
  exact ⟨memory_forms, rfl, fun ⟨x, _, hx, _⟩ => h x hx, fun ⟨_, y, _, hy⟩ => h y hy⟩

theorem witness_AddThenAdcIsWide : Reg.r0 ≠ .pc ∧ Reg.r6 ≠ .pc := by decide

theorem witness_AbsoluteJump : mem.pfr = 0 := rfl

theorem witness_SetAndSefInEveryForm : MemoryForms { mem with t := true } ∧ whenT true { mem with t := true } ∧
    MemoryForms { mem with t := false } ∧ whenT false { mem with t := false } := memory_forms_T
theorem witness_SelInEveryForm : MemoryForms { mem with t := true } ∧ whenT true { mem with t := true } ∧
    MemoryForms { mem with t := false } ∧ whenT false { mem with t := false } := memory_forms_T
theorem witness_ConditionalAdd : MemoryForms { mem with t := true } ∧ whenT true { mem with t := true } ∧
    MemoryForms { mem with t := false } ∧ whenT false { mem with t := false } := memory_forms_T
theorem witness_ConditionalSubtract : MemoryForms { mem with t := true } ∧ whenT true { mem with t := true } ∧
    MemoryForms { mem with t := false } ∧ whenT false { mem with t := false } := memory_forms_T

theorem witness_LpLoadsProgramWord : mem.readProg (mem.readReg .r2) = .ok 0xD805 ∧
    mem.readProg (mem.readReg .r5) = .ok 0xBEEF := by decide

theorem witness_CallAndReturn : ∃ u, exec (.jl 31) mem = .next u ∧ u.r6 = u.r6 := ⟨_, rfl, rfl⟩

theorem witness_ImmediateIsPrefixThenField : mem.pfr = 0 := rfl

theorem witness_DirectAddressIsImmediate : mem.pfr = 0 := rfl

theorem witness_StoreThenLoad : (mem.ea (.direct 31)).toNat < mem.dataWords ∧
    ∃ t, exec (.movZS .r0 31) mem = .next t ∧ t.data = t.data ∧ t.dataWords = t.dataWords ∧ t.ea (.direct 31) = mem.ea (.direct 31) ∧
      Reg.r1 ≠ .pc := ⟨by decide, _, rfl, rfl, rfl, rfl, by decide⟩

theorem witness_ProgramMemoryNeverChanges : (∃ t, exec (.movZS .r0 0) mem = .next t) ∧ ∃ t, step mem = .next t :=
  ⟨⟨_, rfl⟩, ⟨_, rfl⟩⟩

theorem witness_OnlyStoresWriteData :
    (∃ t, exec (.movZL .r0 31) mem = .next t ∧ (Instr.movZL .r0 31).storeAddr = none) ∧
    ∃ t, exec (.addMS .r0 .a0 31) mem = .next t ∧ (Instr.addMS .r0 .a0 31).storeAddr = some (.indexed .a0 31) ∧
      (16 : Word) ≠ mem.ea (.indexed .a0 31) := ⟨⟨_, rfl, rfl⟩, ⟨_, rfl, rfl, by decide⟩⟩

theorem witness_UnwrittenWordFaults :
    ((Instr.cpcZL .r0 31).dataRead State.reset.t = some (.direct 31) ∧
      (Instr.addMS .r0 .a2 0).dataRead State.reset.t = some (.indexed .a2 0) ∧
      (State.reset.ea (.direct 31)).toNat < State.reset.dataWords ∧
      (State.reset.ea (.indexed .a2 0)).toNat < State.reset.dataWords ∧
      State.reset.data.read (State.reset.ea (.direct 31)).toNat = none ∧
      State.reset.data.read (State.reset.ea (.indexed .a2 0)).toNat = none) ∧
    ((State.reset.readReg .r0).toNat < State.reset.progWords ∧
      State.reset.prog.read (State.reset.readReg .r0).toNat = none) ∧
    (State.reset.halted = false ∧ State.reset.pc.toNat < State.reset.progWords ∧
      State.reset.prog.read State.reset.pc.toNat = none) := by decide

/-- A machine with little memory: the first address past the end of each is within reach. -/
def small : State := { State.resetOf { progWords := 1, dataWords := 31, resetPc := 1 } with r6 := 1 }

theorem witness_UninstalledAddressFaults :
    ((Instr.movZL .r0 31).dataRead small.t = some (.direct 31) ∧ (Instr.movZS .r0 31).dataWrite small.t = some (.direct 31) ∧
      small.dataWords ≤ (small.ea (.direct 31)).toNat) ∧
    small.progWords ≤ (small.readReg .r6).toNat ∧ (small.halted = false ∧ small.progWords ≤ small.pc.toNat) := by decide

/-- Past the end of a smaller memory a fetch, a load and a store fault by name; the last installed word works. -/
theorem test_outOfRange : step small = .fault (.outOfRange .prog 1) ∧
    exec (.movZL .r0 31) small = .fault (.outOfRange .data 31) ∧ exec (.movZS .r0 31) small = .fault (.outOfRange .data 31) ∧
    after (exec (.movZS .r6 30) small) (fun t => t.data == [(30, 1)]) = true := ⟨rfl, rfl, rfl, rfl⟩

/-- A memory with every word written. -/
def zeros : Memory := (List.range' 0 65536).map fun a => (a, 0)

theorem read_zeros (n m a : Nat) (h1 : m ≤ a) (h2 : a < m + n) :
    Memory.read ((List.range' m n).map fun a => (a, 0)) a = some 0 := by
  induction n generalizing m with
  | zero => omega
  | succ n ih =>
    rw [List.range'_succ, List.map_cons, Memory.read]
    split
    · rfl
    · exact ih (m + 1) (by omega) (by omega)

/-- A machine with every word of both memories written. -/
def full : State := { State.reset with prog := zeros, data := zeros }

theorem full_written : full.fullyWritten := by
  have h : ∀ a : Word, Memory.read zeros a.toNat = some 0 := fun a =>
    read_zeros 65536 0 a.toNat (Nat.zero_le _) (by have := a.isLt; omega)
  exact ⟨fun a ha => ⟨0, readWord_ok.mpr ⟨ha, h a⟩⟩, fun a ha => ⟨0, readWord_ok.mpr ⟨ha, h a⟩⟩⟩

theorem witness_EveryInstructionCompletes :
    ((Instr.addZS .r0 31).dataRead mem.t = some (.direct 31) ∧ mem.readData (mem.ea (.direct 31)) = .ok 7 ∧
      (Instr.addZS .r0 31).dataWrite mem.t = some (.direct 31) ∧ (mem.ea (.direct 31)).toNat < mem.dataWords ∧
      mem.readProg (mem.readReg .r5) = .ok 0xBEEF) ∧
    (full.fullyWritten ∧ full.progWords = 65536 ∧ full.dataWords = 65536) ∧
    (full.fullyWritten ∧ ∃ t, exec .nop full = .next t) :=
  ⟨by decide, ⟨full_written, rfl, rfl⟩, full_written, _, rfl⟩

theorem witness_OnlyTheDestinationRegisterChanges :
    (∃ t, exec (.mvlI .r0 31) mem = .next t) ∧ Reg.r5 ≠ .pc ∧ (Instr.mvlI .r0 31).destReg ≠ some .r5 ∧
      ¬ ((Instr.mvlI .r0 31).writesLink = true ∧ Reg.r5 = .r6) := ⟨⟨_, rfl⟩, by decide⟩

theorem witness_FlagsKeptByTheListedInstructions :
    (∃ t, exec (.movR .pc .r6) mem = .next t) ∧ (Instr.movR .pc .r6).keepsFlags = true := ⟨⟨_, rfl⟩, rfl⟩

theorem witness_CarryAndZeroReadOnlyByCarryIn :
    (Instr.addI .r0 31).readsCarry = false ∧ (Instr.movI .r0 0).readsCarry = false := ⟨rfl, rfl⟩

theorem witness_ConditionReadOnlyByConditionals :
    (Instr.adcI .r0 31).readsT = false ∧ (Instr.jl 0).readsT = false := ⟨rfl, rfl⟩

theorem witness_PrefixReadOnlyByImmediates :
    (Instr.addR .pc .pc .pc).readsPrefix = false ∧ Instr.hlt.readsPrefix = false ∧ (Instr.lp .r0 .r0).readsPrefix = false :=
  ⟨rfl, rfl, rfl⟩

theorem witness_PrefixLastsOneInstruction :
    (∃ t, exec (.addI .r0 31) { mem with pfr := 0x7FF } = .next t) ∧ ∀ k, Instr.addI .r0 31 ≠ .pfx k :=
  ⟨⟨_, rfl⟩, fun _ h => by cases h⟩

theorem witness_SequentialUnlessPcIsDestination :
    (∃ t, exec .nop { mem with pc := 0xFFFF } = .next t) ∧ Instr.nop.destReg ≠ some .pc := ⟨⟨_, rfl⟩, by decide⟩

theorem witness_PcAsOperand : Reg.r0 ≠ .pc ∧ Reg.r6 ≠ .pc := by decide

theorem witness_OnlyHltHalts : (∃ t, exec .hlt mem = .next t) ∧ ∃ t, exec .nop mem = .next t := ⟨⟨_, rfl⟩, ⟨_, rfl⟩⟩

theorem witness_CyclesCounted : ((∃ t, exec .nop mem = .next t) ∧ ∀ ri rk, Instr.nop ≠ .lp ri rk) ∧
    (∃ t, exec (.lp .r0 .r5) mem = .next t) ∧
    (({ mem with halted := true } : State).halted = true ∧ ∃ t, step { mem with halted := true } = .next t) :=
  ⟨⟨⟨_, rfl⟩, fun _ _ h => by cases h⟩, ⟨_, rfl⟩, rfl, ⟨_, rfl⟩⟩

theorem witness_StepRunsDecodedInstruction :
    mem.halted = false ∧ mem.readProg mem.pc = .ok 0xD805 ∧ decode 0xD805 = .ok (.movI .r0 5) := by decide

theorem witness_StepStopsAndHalts :
    (({ mem with prog := [(0, 0xFFFF)] } : State).halted = false ∧
      ({ mem with prog := [(0, 0xFFFF)] } : State).readProg 0 = .ok 0xFFFF ∧ Word.undocumentedRow 0xFFFF = true) ∧
    ({ mem with halted := true } : State).halted = true := by decide

theorem witness_HostActsOnTheHaltedMachine : (mem.halted = false ∧ ∃ t, exec .hlt mem = .next t) ∧
    (({ mem with halted := true } : State).halted = true ∧ (65535 : Word).toNat < mem.dataWords ∧
      (65535 : Word).toNat < mem.progWords ∧ (0 : Word) ≠ 65535 ∧ Reg.r6 ≠ .pc) ∧
    (({ small with halted := true } : State).halted = true ∧ small.dataWords ≤ (31 : Word).toNat ∧
      small.progWords ≤ (1 : Word).toNat) := ⟨⟨rfl, _, rfl⟩, by decide, by decide⟩

theorem mem_inv : mem.Inv := by
  refine ⟨?_, ?_, ?_, fun h => by cases h⟩ <;> decide

theorem witness_ResetMeetsInvariant : Config.legalSizes 1 65536 ∧ Config.legalSizes 65536 1 := by decide

theorem witness_StepKeepsInvariant : mem.Inv ∧ ∃ t, step mem = .next t := ⟨mem_inv, _, rfl⟩

theorem witness_HostActKeepsInvariant : mem.Inv ∧ ({ mem with halted := true } : State).Inv :=
  ⟨mem_inv, mem_inv.1, mem_inv.2.1, mem_inv.2.2.1, fun _ => rfl⟩

theorem witness_DecodeReadsBackEncode :
    (Instr.pfx 1).wf = true ∧ (Instr.pfx 0x7FF).wf = true ∧ (Instr.cmpI .r6 31).wf = true := by decide

theorem witness_EncodeReadsBackDecode : decode 0x0F1F = .ok .hlt ∧ decode 0xFFDF = .ok (.bfMinus 31) := by decide

theorem witness_IgnoredBitsAreIgnored :
    decode 0x0800 = .ok .hlt ∧ 0x0F1F &&& Instr.hlt.usedBits = 0x0800 &&& Instr.hlt.usedBits ∧
    decode 0x9809 = .ok (.movR .r0 .r1) ∧
      0x9839 &&& (Instr.movR .r0 .r1).usedBits = 0x9809 &&& (Instr.movR .r0 .r1).usedBits := by decide

end Sys2Proof.Tests
end

/-! Direct (ZP-type) addressing, 20_memory.md R47. -/

namespace Sys2Proof.Machine

@[simp] theorem State.ea_direct (s : State) (k : Imm5) : s.ea (.direct k) = s.imm16 k := rfl

/-- The zero page: without a prefix an immediate has no bits above its field (40_cycle_and_prefix.md R94). -/
theorem State.imm16_le_31_of_pfr_zero {s : State} (h : s.pfr = 0) (k : Imm5) : (s.imm16 k).toNat ≤ 31 := by
  have hk : k.toNat < 32 := k.isLt
  have hp : s.pfr.toNat = 0 := by rw [h]; rfl
  rw [State.imm16_toNat, hp]
  omega

/-- How an assembler splits a 16-bit value over a prefix and a field (`pfx M >> 5`, then `M & 0x1f`): put together
again as `32 * (M / 32) + M % 32`, the value is `M`. -/
theorem State.imm16_of_split {s : State} {m : Word} (h : s.pfr = (m >>> 5).setWidth 11) :
    s.imm16 (m.setWidth 5) = m := by
  have hm : m.toNat < 65536 := m.isLt
  have hfield : (m.setWidth 5).toNat = m.toNat % 32 := BitVec.toNat_setWidth 5 m
  have hprefix : s.pfr.toNat = m.toNat / 32 := by
    rw [h, BitVec.toNat_setWidth, BitVec.toNat_ushiftRight, Nat.shiftRight_eq_div_pow]
    omega
  apply BitVec.eq_of_toNat_eq
  rw [State.imm16_toNat, hprefix, hfield]
  omega

end Sys2Proof.Machine

namespace Sys2Proof

open Sys2Proof.Machine

/-- Settles O31: a direct address is the immediate, whose two ranges are the zero page and, by the prefix split, every word. -/
theorem directAddressIsImmediate : Obligations.DirectAddressIsImmediate := by
  unfold Obligations.DirectAddressIsImmediate
  refine ⟨fun s k => ⟨s.ea_direct k, fun noPrefix => ?zeroPage⟩, fun s m => ?anyWord⟩
  case zeroPage =>
    rw [State.ea_direct]
    exact State.imm16_le_31_of_pfr_zero noPrefix k
  case anyWord =>
    rw [State.ea_direct]
    exact State.imm16_of_split rfl

end Sys2Proof

/-! The forms of a mnemonic share one meaning over `Form`: what that meaning gives for every form is given in the forms
that the statements list (40_cycle_and_prefix.md R100). -/

namespace Sys2Proof.Machine

/-- In `s` the form reads `a` as S1 and `b` as S2, and a memory destination is installed. -/
structure Form.Operands (f : Form) (s : State) (a b : Word) : Prop where
  src1 : f.src1 s = .ok a
  src2 : f.src2 s = .ok b
  installed : ∀ ea, f.dest s = .mem ea → ea.toNat < s.dataWords

theorem Form.operands_imm (s : State) (ri : Reg) (k : Imm5) :
    (Form.imm ri k).Operands s (s.readReg ri) (s.imm16 k) :=
  ⟨rfl, rfl, fun _ h => nomatch h⟩

theorem Form.operands_regs (s : State) (ri rj rk : Reg) :
    (Form.regs ri rj rk).Operands s (s.readReg rj) (s.readReg rk) :=
  ⟨rfl, rfl, fun _ h => nomatch h⟩

theorem Form.operands_load {s : State} {x : Addr} {m : Word} (ri : Reg) (h : s.readData (s.ea x) = .ok m) :
    (Form.load ri x).Operands s (s.readReg ri) m :=
  ⟨rfl, h, fun _ h => nomatch h⟩

theorem Form.operands_store {s : State} {x : Addr} {m : Word} (ri : Reg) (h : s.readData (s.ea x) = .ok m) :
    (Form.store ri x).Operands s m (s.readReg ri) := by
  refine ⟨h, rfl, fun ea hdest => ?_⟩
  cases hdest
  exact State.installed_of_readData h

/-- With the operands at hand a meaning over its two sources is its continuation. -/
theorem Form.Operands.withSources_eq {f : Form} {s : State} {a b : Word} (h : f.Operands s a b)
    (k : Word → Word → Answer) : f.withSources s k = k a b := by
  simp only [Form.withSources, h.src1, h.src2, withVal_ok]

/-- The claim `P` holds of `i` as the instruction whose operand form is `f`. -/
def Form.Gives (f : Form) (i : Instr) (P : Effect) : Prop :=
  ∀ s a b, f.Operands s a b → P i s (f.dest s) a b

section
variable {P : Effect}

theorem immForm_of_gives {mk : Reg → Imm5 → Instr} (h : ∀ ri k, (Form.imm ri k).Gives (mk ri k) P) : ImmForm mk P :=
  fun s ri k => h ri k s _ _ (Form.operands_imm s ri k)

theorem pcForm_of_gives {mk : Imm5 → Instr} (h : ∀ k, (Form.imm .pc k).Gives (mk k) P) : PcForm mk P :=
  fun s k => h k s _ _ (Form.operands_imm s .pc k)

theorem regForm_of_gives {mk : Reg → Reg → Reg → Instr} (h : ∀ ri rj rk, (Form.regs ri rj rk).Gives (mk ri rj rk) P) :
    RegForm mk P :=
  fun s ri rj rk => h ri rj rk s _ _ (Form.operands_regs s ri rj rk)

theorem loadForm_of_gives {mk : Reg → Instr} {x : Addr} (h : ∀ ri, (Form.load ri x).Gives (mk ri) P) :
    LoadForm always mk x P :=
  fun s ri _ hread => h ri s _ _ (Form.operands_load ri (hread trivial))

theorem storeForm_of_gives {mk : Reg → Instr} {x : Addr} (h : ∀ ri, (Form.store ri x).Gives (mk ri) P) :
    StoreForm always mk x P :=
  fun s ri _ _ hread => h ri s _ _ (Form.operands_store ri (hread trivial))

end

/-! ## `add` (41_arithmetic.md R111) -/

/-- What R111 says of one `add`: the sum modulo 65536, C the carry out of bit 15, Z and T "the result is zero". -/
def addEffect : Effect :=
  Yields (fun _ a b => a + b) fun _ a b t =>
    t.flagsAre (isZero (a + b)) (decide (65536 ≤ a.toNat + b.toNat)) (isZero (a + b))

/-- The meaning shared by all forms of `add` completes as R111 says. -/
theorem aluAdd_gives {f : Form} {i : Instr} (hexec : ∀ s, exec i s = aluAdd f s) : f.Gives i addEffect := by
  intro s a b hops
  have hmeaning : exec i s =
      finish (s.setArith (a + b) (decide (65536 ≤ a.toNat + b.toNat))) (f.dest s) (a + b) := by
    rw [hexec, aluAdd, hops.withSources_eq, add16_false_r, add16_cout]
    rfl
  unfold addEffect Yields
  rw [hmeaning]
  exact completes_finish (s.sameBut_setArith _ _) hops.installed fun t ht hc hz => ⟨ht, hc, hz⟩

/-- `add` in its six forms and `b+`, which is `add` of PC and an immediate into PC, are one meaning. -/
theorem add_forms :
    ImmForm .addI addEffect ∧ PcForm .bPlus addEffect ∧ RegForm .addR addEffect ∧
      IndexedLoad always .addML addEffect ∧ IndexedStore always .addMS addEffect ∧
      DirectLoad always .addZL addEffect ∧ DirectStore always .addZS addEffect :=
  ⟨immForm_of_gives fun _ _ => aluAdd_gives fun _ => rfl,
    pcForm_of_gives fun _ => aluAdd_gives fun _ => rfl,
    regForm_of_gives fun _ _ _ => aluAdd_gives fun _ => rfl,
    fun _ _ => loadForm_of_gives fun _ => aluAdd_gives fun _ => rfl,
    fun _ _ => storeForm_of_gives fun _ => aluAdd_gives fun _ => rfl,
    fun _ => loadForm_of_gives fun _ => aluAdd_gives fun _ => rfl,
    fun _ => storeForm_of_gives fun _ => aluAdd_gives fun _ => rfl⟩

end Sys2Proof.Machine

namespace Sys2Proof

open Sys2Proof.Machine

/-! ## The words of `add`: op 100, fn 00 (30_encoding.md R73) -/

/-- In an I-type word the destination PC turns `add` into `b+` (30_encoding.md R76). -/
theorem decode_packI_add (ri : Reg) (k : Imm5) :
    decode (packI 4 ri 0 k) = .ok (if ri = .pc then .bPlus k else .addI ri k) := by
  rw [decode_packI]
  by_cases hpc : ri = .pc
  · simp [hpc, decodeJ, packI]
  · simp [hpc, decodeGprI, packI]

theorem decode_packR_add (ri rj rk : Reg) : decode (packR 4 (regBits ri) 0 rj rk) = .ok (.addR ri rj rk) := by
  rw [decode_packR]
  simp [decodeR, packR]

theorem decode_packM_addML (ri : Reg) (an : AReg) (k : Imm5) :
    decode (packM 4 ri an 0 k) = .ok (.addML ri an k) := by
  rw [decode_packM (by decide)]
  simp [decodeM, packM]

theorem decode_packM_addMS (ri : Reg) (an : AReg) (k : Imm5) :
    decode (packM 4 ri an 1 k) = .ok (.addMS ri an k) := by
  rw [decode_packM (by decide)]
  simp [decodeM, packM]

theorem decode_packZ_addZL (ri : Reg) (k : Imm5) : decode (packZ 4 ri 0 0 k) = .ok (.addZL ri k) := by
  rw [decode_packZ]
  simp [decodeZ, packZ]

theorem decode_packZ_addZS (ri : Reg) (k : Imm5) : decode (packZ 4 ri 0 1 k) = .ok (.addZS ri k) := by
  rw [decode_packZ]
  simp [decodeZ, packZ]

/-- Settles O1: every form of `add` is the one meaning `aluAdd` over its operand form, which completes as R111 says; the
decoder reads each form's words field by field. -/
theorem addInEveryForm : Obligations.AddInEveryForm :=
  ⟨add_forms, fun ri rj rk an k =>
    ⟨decode_packI_add ri k, decode_packR_add ri rj rk, decode_packM_addML ri an k, decode_packM_addMS ri an k,
      decode_packZ_addZL ri k, decode_packZ_addZS ri k⟩⟩

end Sys2Proof

/-! `and`, `or` and `xor` (42_bitwise.md R130 to R132) differ in the operation on words alone, so what one of them does is
said once, over the operation. -/

namespace Sys2Proof.Machine

/-- The meaning of a bitwise instruction with the operation `op` on words, in any form. -/
def aluBitwise (op : Word → Word → Word) (f : Form) (s : State) : Answer :=
  f.withSources s fun s1 s2 => finish (s.setBitwise (op s1 s2)) (f.dest s) (op s1 s2)

theorem aluAnd_eq_aluBitwise : aluAnd = aluBitwise (· &&& ·) := rfl
theorem aluOr_eq_aluBitwise : aluOr = aluBitwise (· ||| ·) := rfl
theorem aluXor_eq_aluBitwise : aluXor = aluBitwise (· ^^^ ·) := rfl

/-- What R130 to R132 say of one instruction: the result of `op`, C cleared, Z and T "the result is zero". -/
def bitwiseEffect (op : Word → Word → Word) : Effect :=
  Yields (fun _ => op) fun _ a b t => t.flagsAre (isZero (op a b)) false (isZero (op a b))

theorem State.flagsAre_setBitwise (s : State) (r : Word) :
    (s.setBitwise r).flagsAre (isZero r) false (isZero r) := ⟨rfl, rfl, rfl⟩

/-- The meaning shared by the bitwise instructions completes as R130 to R132 say, in every form. -/
theorem aluBitwise_gives {op : Word → Word → Word} {f : Form} {i : Instr}
    (hexec : ∀ s, exec i s = aluBitwise op f s) : f.Gives i (bitwiseEffect op) := by
  intro s a b hops
  have hmeaning : exec i s = finish (s.setBitwise (op a b)) (f.dest s) (op a b) := by
    rw [hexec, aluBitwise, hops.withSources_eq]
  obtain ⟨hT, hC, hZ⟩ := s.flagsAre_setBitwise (op a b)
  unfold bitwiseEffect Yields
  rw [hmeaning]
  exact completes_finish (s.sameBut_setBitwise _) hops.installed
    fun t ht hc hz => ⟨ht.trans hT, hc.trans hC, hz.trans hZ⟩

section
variable {f : Form} {i : Instr}

theorem aluAnd_gives (hexec : ∀ s, exec i s = aluAnd f s) : f.Gives i (bitwiseEffect (· &&& ·)) :=
  aluBitwise_gives fun s => by rw [hexec, aluAnd_eq_aluBitwise]

theorem aluOr_gives (hexec : ∀ s, exec i s = aluOr f s) : f.Gives i (bitwiseEffect (· ||| ·)) :=
  aluBitwise_gives fun s => by rw [hexec, aluOr_eq_aluBitwise]

theorem aluXor_gives (hexec : ∀ s, exec i s = aluXor f s) : f.Gives i (bitwiseEffect (· ^^^ ·)) :=
  aluBitwise_gives fun s => by rw [hexec, aluXor_eq_aluBitwise]

end

theorem and_forms :
    ImmForm .andI (bitwiseEffect (· &&& ·)) ∧ RegForm .andR (bitwiseEffect (· &&& ·)) ∧
      IndexedLoad always .andML (bitwiseEffect (· &&& ·)) ∧ IndexedStore always .andMS (bitwiseEffect (· &&& ·)) ∧
      DirectLoad always .andZL (bitwiseEffect (· &&& ·)) ∧ DirectStore always .andZS (bitwiseEffect (· &&& ·)) :=
  ⟨immForm_of_gives fun _ _ => aluAnd_gives fun _ => rfl,
    regForm_of_gives fun _ _ _ => aluAnd_gives fun _ => rfl,
    fun _ _ => loadForm_of_gives fun _ => aluAnd_gives fun _ => rfl,
    fun _ _ => storeForm_of_gives fun _ => aluAnd_gives fun _ => rfl,
    fun _ => loadForm_of_gives fun _ => aluAnd_gives fun _ => rfl,
    fun _ => storeForm_of_gives fun _ => aluAnd_gives fun _ => rfl⟩

theorem or_forms :
    ImmForm .orI (bitwiseEffect (· ||| ·)) ∧ RegForm .orR (bitwiseEffect (· ||| ·)) ∧
      DirectLoad always .orZL (bitwiseEffect (· ||| ·)) ∧ DirectStore always .orZS (bitwiseEffect (· ||| ·)) :=
  ⟨immForm_of_gives fun _ _ => aluOr_gives fun _ => rfl,
    regForm_of_gives fun _ _ _ => aluOr_gives fun _ => rfl,
    fun _ => loadForm_of_gives fun _ => aluOr_gives fun _ => rfl,
    fun _ => storeForm_of_gives fun _ => aluOr_gives fun _ => rfl⟩

theorem xor_forms :
    ImmForm .xorI (bitwiseEffect (· ^^^ ·)) ∧ RegForm .xorR (bitwiseEffect (· ^^^ ·)) ∧
      DirectLoad always .xorZL (bitwiseEffect (· ^^^ ·)) ∧ DirectStore always .xorZS (bitwiseEffect (· ^^^ ·)) :=
  ⟨immForm_of_gives fun _ _ => aluXor_gives fun _ => rfl,
    regForm_of_gives fun _ _ _ => aluXor_gives fun _ => rfl,
    fun _ => loadForm_of_gives fun _ => aluXor_gives fun _ => rfl,
    fun _ => storeForm_of_gives fun _ => aluXor_gives fun _ => rfl⟩

end Sys2Proof.Machine

namespace Sys2Proof

open Sys2Proof.Machine

/-- Settles O10: every form of `and`, `or` and `xor` is the one meaning `aluBitwise` over its operation and its operand
form, which completes with C cleared and with Z and T "the result is zero". -/
theorem bitwiseInEveryForm : Obligations.BitwiseInEveryForm := ⟨and_forms, or_forms, xor_forms⟩

end Sys2Proof

/-! The shifts by one register (43_shift_rotate.md R141 to R144) and by how far they shift: a shift is a funnel with no
incoming bits, and what left it goes to C and T. -/

namespace Sys2Proof.Machine

/-! ## The funnels -/

theorem funnelRight_zero_r (n : Nat) (a : Word) : (funnelRight n a 0).r = a >>> n := by
  simp [funnelRight]

theorem funnelLeft_zero_r (n : Nat) (a : Word) : (funnelLeft n a 0).r = a <<< n := by
  simp [funnelLeft]

theorem funnelRight_out_iff (n : Nat) (a b : Word) : (funnelRight n a b).out = true ↔ a.toNat % 2 ^ n ≠ 0 := by
  rw [funnelRight_out, decide_eq_true_iff]

/-- The `n` high bits of a word are what is left of it after division: nothing stands above them. -/
theorem toNat_extractLsb'_high {n : Nat} (hn : n ≤ 16) (a : Word) :
    (a.extractLsb' (16 - n) n).toNat = a.toNat / 2 ^ (16 - n) := by
  have hbound : a.toNat / 2 ^ (16 - n) < 2 ^ n := by
    rw [Nat.div_lt_iff_lt_mul (Nat.two_pow_pos _), ← Nat.pow_add, Nat.add_sub_cancel' hn]
    exact a.isLt
  rw [BitVec.extractLsb'_toNat, Nat.shiftRight_eq_div_pow, Nat.mod_eq_of_lt hbound]

theorem funnelLeft_out_iff {n : Nat} (hn : n ≤ 16) (a b : Word) :
    (funnelLeft n a b).out = true ↔ a.toNat / 2 ^ (16 - n) ≠ 0 := by
  rw [funnelLeft, bne_iff_ne, ← toNat_extractLsb'_high hn, ne_eq, ne_eq, ← BitVec.toNat_inj,
    BitVec.ofNat_eq_ofNat, BitVec.toNat_zero]

/-! ## How a shift completes -/

/-- C and T both say whether `out` holds (R149); nothing is said of Z. -/
def State.carriesOut (t : State) (out : Prop) : Prop := (t.c = true ↔ out) ∧ (t.t = true ↔ out)

theorem completes_finishShift {out : Prop} (s : State) (ri : Reg) {d : Shifted} (hout : d.out = true ↔ out) :
    Completes (finishShift s ri d) s (.reg ri) d.r fun t => t.carriesOut out :=
  completes_finish (s.sameBut_setShift d.out) (fun _ h => nomatch h) fun t ht hc _ =>
    ⟨by rw [hc]; exact hout, by rw [ht]; exact hout⟩

section
variable {i : Instr} {s : State} {ri : Reg} {a : Word}

/-- A shift right by `n` completes with the word shifted, C and T telling of the `n` low bits. -/
theorem shiftRight_completes (n : Nat) (hexec : exec i s = finishShift s ri (funnelRight n a 0)) :
    Completes (exec i s) s (.reg ri) (a >>> n) fun t => t.carriesOut (a.toNat % 2 ^ n ≠ 0) := by
  rw [hexec, ← funnelRight_zero_r]
  exact completes_finishShift s ri (funnelRight_out_iff n a 0)

/-- A shift left by `n` completes with the word shifted, C and T telling of the `n` high bits. -/
theorem shiftLeft_completes {n : Nat} (hn : n ≤ 16) (hexec : exec i s = finishShift s ri (funnelLeft n a 0)) :
    Completes (exec i s) s (.reg ri) (a <<< n) fun t => t.carriesOut (a.toNat / 2 ^ (16 - n) ≠ 0) := by
  rw [hexec, ← funnelLeft_zero_r]
  exact completes_finishShift s ri (funnelLeft_out_iff hn a 0)

end

end Sys2Proof.Machine

namespace Sys2Proof

open Sys2Proof.Machine

/-! ## The words of the shifts: op 000 and 001, fn 00 and 10, any `Rk` (30_encoding.md R73) -/

/-- No shift reads the `Rk` field of its word. -/
theorem decode_packR_shifts (ri rj rk : Reg) :
    decode (packR 0 (regBits ri) 0 rj rk) = .ok (.sr1R ri rj) ∧
      decode (packR 0 (regBits ri) 2 rj rk) = .ok (.sr4R ri rj) ∧
      decode (packR 1 (regBits ri) 0 rj rk) = .ok (.sl1R ri rj) ∧
      decode (packR 1 (regBits ri) 2 rj rk) = .ok (.sl4R ri rj) := by
  simp only [decode_packR]
  simp [decodeR, packR]

/-- Settles O11: each shift is a funnel by 1 or 4 without incoming bits, which completes with the bits that left in C and
T; the decoder does not read the `Rk` field of its words. -/
theorem shiftsOfOneRegister : Obligations.ShiftsOfOneRegister :=
  ⟨⟨fun _ _ _ => shiftRight_completes 1 rfl, fun _ _ _ => shiftRight_completes 4 rfl,
      fun _ _ _ => shiftLeft_completes (n := 1) (by decide) rfl,
      fun _ _ _ => shiftLeft_completes (n := 4) (by decide) rfl⟩,
    decode_packR_shifts⟩

end Sys2Proof

/-! The absolute jump (47_branch_link.md R211): `mov` of an immediate into PC, alone and behind a prefix. -/

namespace Sys2Proof.Machine

/-- Without a prefix an immediate is its field (40_cycle_and_prefix.md R94). -/
theorem State.imm16_of_pfr_zero {s : State} (h : s.pfr = 0) (k : Imm5) : s.imm16 k = k.setWidth 16 := by
  have hk : k.toNat < 32 := k.isLt
  have hp : s.pfr.toNat = 0 := by rw [h]; rfl
  apply BitVec.eq_of_toNat_eq
  rw [State.imm16_toNat, hp, BitVec.toNat_setWidth]
  omega

/-- `mov K, Ri` writes the immediate and touches no flag, whatever `Ri` is (45_move.md R180). -/
theorem moveMov_imm_completes (s : State) (ri : Reg) (k : Imm5) :
    Completes (moveMov (.imm ri k) s) s (.reg ri) (s.imm16 k) s.sameFlags := by
  have hmeaning : moveMov (.imm ri k) s = finish s (.reg ri) (s.imm16 k) := rfl
  rw [hmeaning]
  exact completes_finish (.refl s) (fun _ h => nomatch h) fun _ ht hc hz => ⟨ht, hc, hz⟩

theorem exec_j_completes (s : State) (k : Imm5) :
    Completes (exec (.j k) s) s (.reg .pc) (s.imm16 k) s.sameFlags :=
  moveMov_imm_completes s .pc k

/-- Completing into PC is a jump to the value written (10_state.md R17). -/
theorem Completes.jumps {o : Answer} {s : State} {v : Word} {flags : State → Prop}
    (h : Completes o s (.reg .pc) v flags) : ∃ t, o = .next t ∧ t.pc = v ∧ flags t := by
  obtain ⟨t, hnext, ⟨hpc, -⟩, hflags, -⟩ := h
  exact ⟨t, hnext, hpc rfl, hflags⟩

/-- The prefix changes no flag, and the next instruction finds it in PFR (40_cycle_and_prefix.md R92). -/
theorem exec_pfx_next (s : State) (p : Imm11) :
    ∃ u, exec (.pfx p) s = .next u ∧ u.pfr = p ∧ s.sameFlags u :=
  ⟨_, rfl, rfl, rfl, rfl, rfl⟩

theorem State.sameFlags_trans {s u t : State} (hsu : s.sameFlags u) (hut : u.sameFlags t) : s.sameFlags t := by
  obtain ⟨huT, huC, huZ⟩ := hsu
  obtain ⟨htT, htC, htZ⟩ := hut
  exact ⟨htT.trans huT, htC.trans huC, htZ.trans huZ⟩

end Sys2Proof.Machine

namespace Sys2Proof

open Sys2Proof.Machine

/-- Settles O18: `j` is the `mov` of an immediate into PC; its target is the field where PFR is 0, and any word where the
prefix holds the word's upper bits. -/
theorem absoluteJump : Obligations.AbsoluteJump := by
  unfold Obligations.AbsoluteJump
  refine ⟨fun s k => ⟨exec_j_completes s k, rfl⟩, fun s k noPrefix => ?unprefixed, fun s target => ?prefixed⟩
  case unprefixed =>
    obtain ⟨t, hj, hpc, -⟩ := (exec_j_completes s k).jumps
    exact ⟨t, hj, hpc.trans (State.imm16_of_pfr_zero noPrefix k)⟩
  case prefixed =>
    obtain ⟨u, hpfx, hpfr, hsu⟩ := exec_pfx_next s ((target >>> 5).setWidth 11)
    obtain ⟨t, hj, hpc, hut⟩ := (exec_j_completes u (target.setWidth 5)).jumps
    exact ⟨u, hpfx, t, hj, hpc.trans (State.imm16_of_split hpfr), State.sameFlags_trans hsu hut⟩

end Sys2Proof

/-! What one instruction can do to each part of the state, read off `exec_shape`: the statements about every instruction
follow from these field by field. -/

namespace Sys2Proof.Machine

section
variable {i : Instr} {s t : State}

/-- No instruction changes program memory or what is installed (20_memory.md R41, R52). -/
theorem exec_keeps_program (h : exec i s = .next t) :
    t.prog = s.prog ∧ t.progWords = s.progWords ∧ t.dataWords = s.dataWords := by
  rcases exec_shape h with ⟨k, -, rfl⟩ | ⟨-, rfl⟩ |
    ⟨-, -, T, C, Z, fc, -, p, rfl, ⟨r, v, -, rfl⟩ | ⟨a, v, -, -, rfl⟩ | ⟨-, rfl⟩⟩
  case inr.inr.inl => exact ⟨State.writeReg_prog .., State.writeReg_progWords .., State.writeReg_dataWords ..⟩
  all_goals exact ⟨rfl, rfl, rfl⟩

/-- Data memory stays, or receives one word at the effective address of a store form (20_memory.md R49). -/
theorem exec_data (h : exec i s = .next t) :
    t.data = s.data ∨
    ∃ a v, i.storeAddr = some a ∧ (s.ea a).toNat < s.dataWords ∧ t.data = s.data.write (s.ea a).toNat v := by
  rcases exec_shape h with ⟨k, -, rfl⟩ | ⟨-, rfl⟩ |
    ⟨-, -, T, C, Z, fc, -, p, rfl, ⟨r, v, -, rfl⟩ | ⟨a, v, haddr, hinst, rfl⟩ | ⟨-, rfl⟩⟩
  case inr.inr.inl => exact .inl (State.writeReg_data ..)
  case inr.inr.inr.inl => exact .inr ⟨a, v, haddr, hinst, rfl⟩
  all_goals exact .inl rfl

/-- `hlt` sets the run state and nothing else changes it (10_state.md R26). -/
theorem exec_halted (h : exec i s = .next t) : t.halted = (decide (i = .hlt) || s.halted) := by
  rcases exec_shape h with ⟨k, rfl, rfl⟩ | ⟨rfl, rfl⟩ |
    ⟨hne, -, T, C, Z, fc, -, p, rfl, ⟨r, v, -, rfl⟩ | ⟨a, v, -, -, rfl⟩ | ⟨-, rfl⟩⟩
  case inl => rfl
  case inr.inl => rfl
  all_goals simp [hne, State.prepared]

/-- Every instruction but `pfx` clears PFR (40_cycle_and_prefix.md R95). -/
theorem exec_pfr (h : exec i s = .next t) (hne : ∀ k, i ≠ .pfx k) : t.pfr = 0 := by
  rcases exec_shape h with ⟨k, rfl, rfl⟩ | ⟨-, rfl⟩ |
    ⟨-, -, T, C, Z, fc, -, p, rfl, ⟨r, v, -, rfl⟩ | ⟨a, v, -, -, rfl⟩ | ⟨-, rfl⟩⟩
  case inl => exact absurd rfl (hne k)
  case inr.inr.inl => exact State.writeReg_pfr ..
  all_goals rfl

/-- One cycle is counted, and the extra one of `lp` (70_reset_and_hazards.md R266). -/
theorem exec_cycles (h : exec i s = .next t) : t.cycles = s.cycles + extraCycles i + 1 := by
  rcases exec_shape h with ⟨k, rfl, rfl⟩ | ⟨rfl, rfl⟩ |
    ⟨-, -, T, C, Z, fc, -, p, rfl, ⟨r, v, -, rfl⟩ | ⟨a, v, -, -, rfl⟩ | ⟨-, rfl⟩⟩
  case inr.inr.inl => exact State.writeReg_cycles ..
  all_goals rfl

/-- The instructions of the flag table's "unchanged" rows pass the flags on (10_state.md section 5). -/
theorem exec_keeps_flags (h : exec i s = .next t) (hkeep : i.keepsFlags = true) : s.sameFlags t := by
  rcases exec_shape h with ⟨k, -, rfl⟩ | ⟨-, rfl⟩ | ⟨-, -, T, C, Z, fc, hflags, p, rfl, hend⟩
  · exact ⟨rfl, rfl, rfl⟩
  · exact ⟨rfl, rfl, rfl⟩
  · obtain ⟨rfl, rfl, rfl⟩ := hflags hkeep
    rcases hend with ⟨r, v, -, rfl⟩ | ⟨a, v, -, -, rfl⟩ | ⟨-, rfl⟩
    · exact ⟨State.writeReg_t .., State.writeReg_c .., State.writeReg_z ..⟩
    · exact ⟨rfl, rfl, rfl⟩
    · exact ⟨rfl, rfl, rfl⟩

/-- An instruction that does not write register 7 goes on at the following address (40_cycle_and_prefix.md R91). -/
theorem exec_pc (h : exec i s = .next t) (hne : i.destReg ≠ some .pc) : t.pc = s.nextPc := by
  rcases exec_shape h with ⟨k, rfl, rfl⟩ | ⟨rfl, rfl⟩ |
    ⟨-, -, T, C, Z, fc, -, p, rfl, ⟨r, v, hdest, rfl⟩ | ⟨a, v, -, -, rfl⟩ | ⟨-, rfl⟩⟩
  case inr.inr.inl =>
    have hr : r ≠ .pc := fun e => hne (e ▸ hdest)
    exact State.writeReg_pc_ne _ hr v
  all_goals rfl

/-- The state an instruction ends from differs in R6 only for a move and link (47_branch_link.md R218). -/
theorem State.readReg_prepared {s : State} {q : Reg} {l : Word} (T C Z : Bool) (fc cy : Nat)
    (hlink : q = .r6 → l = s.r6) : (s.prepared T C Z fc cy l).readReg q = s.readReg q := by
  cases q
  case r6 => exact hlink rfl
  all_goals rfl

@[simp] theorem State.readReg_setData (s : State) (m : Memory) (q : Reg) :
    ({ s with data := m } : State).readReg q = s.readReg q := by
  cases q <;> rfl

/-- The registers that are neither the destination nor a written link read as before (40_cycle_and_prefix.md R101). -/
theorem exec_readReg (h : exec i s = .next t) {q : Reg} (hpc : q ≠ .pc) (hdest : i.destReg ≠ some q)
    (hlink : ¬ (i.writesLink = true ∧ q = .r6)) : t.readReg q = s.readReg q := by
  rcases exec_shape h with ⟨k, -, rfl⟩ | ⟨-, rfl⟩ | ⟨-, -, T, C, Z, fc, -, p, rfl, hend⟩
  · exact State.readReg_retire s hpc
  · exact State.readReg_retire s hpc
  · have hl : q = .r6 → (if i.writesLink then s.nextPc else s.r6) = s.r6 := fun hq =>
      if_neg fun hw => hlink ⟨hw, hq⟩
    rw [← State.readReg_prepared T C Z fc (s.cycles + extraCycles i) hl]
    rcases hend with ⟨r, v, hr, rfl⟩ | ⟨a, v, -, -, rfl⟩ | ⟨-, rfl⟩
    · have hqr : q ≠ r := fun e => hdest (e ▸ hr)
      rw [State.readReg_writeReg_ne _ hqr, State.readReg_retire _ hpc]
    · rw [State.readReg_setData, State.readReg_retire _ hpc]
    · exact State.readReg_retire _ hpc

/-- A data word reads as before, but the one a store form names (20_memory.md R49). -/
theorem exec_readData (h : exec i s = .next t) {b : Word} (hb : ∀ a, i.storeAddr = some a → b ≠ s.ea a) :
    t.readData b = s.readData b := by
  obtain ⟨-, -, hwords⟩ := exec_keeps_program h
  rcases exec_data h with hdata | ⟨a, v, haddr, -, hdata⟩
  · simp only [State.readData, hwords, hdata]
  · have hne : b.toNat ≠ (s.ea a).toNat := fun e => hb a haddr (BitVec.eq_of_toNat_eq e)
    simp only [State.readData, readWord, hwords, hdata, Memory.read_write_ne _ hne]

theorem exec_readProg (h : exec i s = .next t) (a : Word) : t.readProg a = s.readProg a := by
  obtain ⟨hprog, hwords, -⟩ := exec_keeps_program h
  simp only [State.readProg, hprog, hwords]

/-- An instruction keeps data memory canonical (`Memory.wf`). -/
theorem exec_keeps_data_wf (h : exec i s = .next t) (hwf : Memory.wf s.dataWords s.data) :
    Memory.wf t.dataWords t.data := by
  obtain ⟨-, -, hwords⟩ := exec_keeps_program h
  rw [hwords]
  rcases exec_data h with hdata | ⟨a, v, -, hinst, hdata⟩
  · exact hdata ▸ hwf
  · exact hdata ▸ Memory.wf_write hwf hinst v

/-- An instruction of a running machine ends halted only without a pending immediate in PFR: `pfx` does not halt
(40_cycle_and_prefix.md R96). -/
theorem exec_pfr_of_halted (h : exec i s = .next t) (hrun : s.halted = false) (hhalt : t.halted = true) :
    t.pfr = 0 := by
  have hi : i = .hlt := by simpa [exec_halted h, hrun] using hhalt
  exact exec_pfr h fun k e => by rw [hi] at e; cases e

/-- The meaning of an instruction keeps the invariant of a running machine. -/
theorem exec_keeps_inv (h : exec i s = .next t) (hrun : s.halted = false) (hinv : s.Inv) : t.Inv := by
  obtain ⟨hsizes, hprog, hdata, -⟩ := hinv
  obtain ⟨hp, hpw, hdw⟩ := exec_keeps_program h
  refine ⟨?_, ?_, exec_keeps_data_wf h hdata, exec_pfr_of_halted h hrun⟩
  · rw [hpw, hdw]
    exact hsizes
  · rw [hp, hpw]
    exact hprog

end

end Sys2Proof.Machine

namespace Sys2Proof

open Sys2Proof.Machine

/-- Settles O54: a halted machine's step changes nothing, and a running one's is an instruction, which keeps the
invariant. -/
theorem stepKeepsInvariant : Obligations.StepKeepsInvariant := by
  unfold Obligations.StepKeepsInvariant
  intro s t hinv hstep
  rcases step_next hstep with ⟨-, rfl⟩ | ⟨hrun, i, -, hexec⟩
  · exact hinv
  · exact exec_keeps_inv hexec hrun hinv

/-- Settles O34: an instruction keeps them, so a step does, whether the machine is halted or running. -/
theorem programMemoryNeverChanges : Obligations.ProgramMemoryNeverChanges := by
  unfold Obligations.ProgramMemoryNeverChanges
  refine ⟨fun i s t hexec => exec_keeps_program hexec, fun s t hstep => ?_⟩
  rcases step_next hstep with ⟨-, rfl⟩ | ⟨-, i, -, hexec⟩
  · exact ⟨rfl, rfl, rfl⟩
  · exact exec_keeps_program hexec

/-- Settles O35: where `storeAddr` is none the other case of `exec_data` cannot be. -/
theorem onlyStoresWriteData : Obligations.OnlyStoresWriteData := by
  unfold Obligations.OnlyStoresWriteData
  refine fun i s t hexec => ⟨fun hnone => ?_, fun a haddr b hb => ?_⟩
  · rcases exec_data hexec with hdata | ⟨a, v, haddr, -⟩
    · exact hdata
    · rw [hnone] at haddr
      cases haddr
  · exact exec_readData hexec fun a' haddr' => by
      rw [haddr] at haddr'
      cases haddr'
      exact hb

/-- Settles O39. -/
theorem onlyTheDestinationRegisterChanges : Obligations.OnlyTheDestinationRegisterChanges :=
  fun _ _ _ hexec _ hpc hdest hlink => exec_readReg hexec hpc hdest hlink

/-- Settles O40. -/
theorem flagsKeptByTheListedInstructions : Obligations.FlagsKeptByTheListedInstructions :=
  fun _ _ _ hexec hkeep => exec_keeps_flags hexec hkeep

/-- Settles O44. -/
theorem prefixLastsOneInstruction : Obligations.PrefixLastsOneInstruction :=
  fun _ _ _ hexec hne => exec_pfr hexec hne

/-- Settles O45: the following address is the sum modulo 65536. -/
theorem sequentialUnlessPcIsDestination : Obligations.SequentialUnlessPcIsDestination := by
  unfold Obligations.SequentialUnlessPcIsDestination
  intro i s t hexec hne
  rw [exec_pc hexec hne, State.nextPc, BitVec.toNat_add]
  rfl

/-- Settles O47. -/
theorem onlyHltHalts : Obligations.OnlyHltHalts := fun _ _ _ hexec => exec_halted hexec

theorem extraCycles_of_ne_lp {i : Instr} (h : ∀ ri rk, i ≠ .lp ri rk) : extraCycles i = 0 := by
  cases i
  case lp ri rk => exact absurd rfl (h ri rk)
  all_goals rfl

/-- Settles O48: the extra cycle is that of `lp`, and a halted machine's step counts nothing. -/
theorem cyclesCounted : Obligations.CyclesCounted := by
  unfold Obligations.CyclesCounted
  refine ⟨fun i s t hexec hne => ?_, fun ri rk s t hexec => exec_cycles hexec, fun s t hhalt hstep => ?_⟩
  · rw [exec_cycles hexec, extraCycles_of_ne_lp hne]
  · rcases step_next hstep with ⟨-, rfl⟩ | ⟨hrun, -⟩
    · rfl
    · rw [hhalt] at hrun
      cases hrun

end Sys2Proof

/-! The decoder and the encoder (30_encoding.md): a word decodes to `i` exactly if it is the word of the well-formed `i`
on the bits that `i` does not ignore (`decode_eq_ok_iff`). Both round trips and the ignored bits follow from this. -/

namespace Sys2Proof

/-- `w` is a word of the well-formed instruction `i`, but for the bits that `i` ignores. -/
def Instr.HasWord (i : Instr) (w : Word) : Prop :=
  i.wf = true ∧ w &&& i.usedBits = encode i &&& i.usedBits

theorem Instr.hasWord_of_encode_eq {i : Instr} {w : Word} (hwf : i.wf = true) (h : encode i = w) : i.HasWord w :=
  ⟨hwf, by rw [h]⟩

/-- A word from its fields, the low six bits taken as the two source registers of the R-type (30_encoding.md R63). -/
theorem packWord_reg_fields (w : Word) :
    packWord (modeF w) (opF w) (destF w) (fnF w) (regBits (rjF w) ++ regBits (rkF w)) = w := by
  simp only [rjF, rkF, regBits_regOfBits]
  apply BitVec.eq_of_getLsbD_eq
  intro i hi
  simp only [packWord, modeF, opF, destF, fnF, BitVec.getLsbD_extractLsb', BitVec.getLsbD_append]
  interval_cases i <;> simp

theorem aregOfBits_eq_none {b : BitVec 2} : aregOfBits b = none ↔ b = 0 := by revert b; decide

theorem regBits_riF (w : Word) : regBits (riF w) = destF w := regBits_regOfBits _

theorem ccBits_ccF (w : Word) : ccBits (ccF w) = destF w := ccBits_ccOfBits _

theorem riF_eq_pc {w : Word} : riF w = .pc ↔ (destF w).toNat = 7 := by
  rw [← regBits_eq_seven, regBits_riF]

section
variable {w : Word} {op : BitVec 3} {fn : BitVec 2} {s : BitVec 1}

theorem packM_fields {an : AReg} (hm : (modeF w).toNat = (0#2).toNat) (ho : (opF w).toNat = op.toNat)
    (ha : aregOfBits (fnF w) = some an) (hs : (sF w).toNat = s.toNat) : packM op (riF w) an s (immF w) = w := by
  rw [packM, regBits_riF, ← aregOfBits_eq_some.mp ha, ← BitVec.toNat_inj.mp ho, ← BitVec.toNat_inj.mp hs]
  exact (congrArg (packWord · _ _ _ _) (BitVec.toNat_inj.mp hm).symm).trans (packWord_fields w)

theorem packZ_fields (hm : (modeF w).toNat = (1#2).toNat) (ho : (opF w).toNat = op.toNat)
    (hf : (fnF w).toNat = fn.toNat) (hs : (sF w).toNat = s.toNat) : packZ op (riF w) fn s (immF w) = w := by
  rw [packZ, regBits_riF, ← BitVec.toNat_inj.mp ho, ← BitVec.toNat_inj.mp hf, ← BitVec.toNat_inj.mp hs]
  exact (congrArg (packWord · _ _ _ _) (BitVec.toNat_inj.mp hm).symm).trans (packWord_fields w)

theorem packR_fields {d : BitVec 3} (hm : (modeF w).toNat = (2#2).toNat) (hd : d = destF w)
    (ho : (opF w).toNat = op.toNat) (hf : (fnF w).toNat = fn.toNat) : packR op d fn (rjF w) (rkF w) = w := by
  rw [packR, hd, ← BitVec.toNat_inj.mp ho, ← BitVec.toNat_inj.mp hf]
  exact (congrArg (packWord · _ _ _ _) (BitVec.toNat_inj.mp hm).symm).trans (packWord_reg_fields w)

theorem packI_fields (hm : (modeF w).toNat = (3#2).toNat) (hs : (sF w).toNat = (0#1).toNat)
    (ho : (opF w).toNat = op.toNat) (hf : (fnF w).toNat = fn.toNat) : packI op (riF w) fn (immF w) = w := by
  have hs0 : sF w = 0 := BitVec.toNat_inj.mp hs
  rw [packI, regBits_riF, ← BitVec.toNat_inj.mp ho, ← BitVec.toNat_inj.mp hf, ← hs0]
  exact (congrArg (packWord · _ _ _ _) (BitVec.toNat_inj.mp hm).symm).trans (packWord_fields w)

end

/-! What an instruction with ignored bits leaves of its word (30_encoding.md R65, R75). -/

theorem packR_and_rj (op d : BitVec 3) (fn : BitVec 2) (rj rk rk' : Reg) :
    packR op d fn rj rk &&& 0xFFF8 = packR op d fn rj rk' &&& 0xFFF8 := by
  rw [show (0xFFF8 : Word) = packWord 3 7 7 3 ((7 : BitVec 3) ++ (0 : BitVec 3)) from rfl]
  rw [packR, packR, packWord_and, packWord_and, BitVec.and_append, BitVec.and_append]
  simp only [BitVec.ofNat_eq_ofNat, BitVec.and_zero]

theorem packR_and_rk (op d : BitVec 3) (fn : BitVec 2) (rj rj' rk : Reg) :
    packR op d fn rj rk &&& 0xFFC7 = packR op d fn rj' rk &&& 0xFFC7 := by
  rw [show (0xFFC7 : Word) = packWord 3 7 7 3 ((0 : BitVec 3) ++ (7 : BitVec 3)) from rfl]
  rw [packR, packR, packWord_and, packWord_and, BitVec.and_append, BitVec.and_append]
  simp only [BitVec.ofNat_eq_ofNat, BitVec.and_zero]

/-- A word of `hlt` is fixed by `Mode`, `op`, bits 7:6 and bit 5. -/
theorem and_of_hlt_fields {w : Word} (hm : modeF w = 0) (ho : opF w = 1) (hf : fnF w = 0) (hs : sF w = 0) :
    w &&& 0xF8E0 = 0x0800 := by
  rw [← packWord_fields w, hm, ho, hf, hs,
    show (0xF8E0 : Word) = packWord 3 7 0 3 ((1 : BitVec 1) ++ (0 : Imm5)) from rfl, packWord_and, BitVec.and_append]
  simp only [BitVec.ofNat_eq_ofNat, BitVec.and_zero]
  rfl

/-- Bit 5 is the highest bit of the `Rj` field. -/
theorem sF_eq_rjF (w : Word) : sF w = (regBits (rjF w)).extractLsb' 2 1 := by
  rw [rjF, regBits_regOfBits]
  apply BitVec.eq_of_getLsbD_eq
  intro i hi
  interval_cases i
  simp [sF]

theorem regBits_rjF_and_four {w : Word} (hs : sF w = 0) : regBits (rjF w) &&& 4 = 0 := by
  rw [sF_eq_rjF] at hs
  revert hs
  cases rjF w <;> decide

/-- A word of `lp` is fixed by `Mode`, `op`, bits 7:6, bit 5 and its two registers. -/
theorem and_of_lp_fields {w : Word} (hm : modeF w = 0) (ho : opF w = 3) (hf : fnF w = 0) (hs : sF w = 0) :
    w &&& 0xFFE7 = packWord 0 3 (destF w) 0 ((0 : BitVec 3) ++ regBits (rkF w)) &&& 0xFFE7 := by
  conv_lhs => rw [← packWord_reg_fields w, hm, ho, hf]
  rw [show (0xFFE7 : Word) = packWord 3 7 7 3 ((4 : BitVec 3) ++ (7 : BitVec 3)) from rfl, packWord_and, packWord_and,
    BitVec.and_append, BitVec.and_append, regBits_rjF_and_four hs]
  rfl

theorem hasWord_of_decodeM {w : Word} {an : AReg} {i : Instr} (hm : (modeF w).toNat = 0)
    (ha : aregOfBits (fnF w) = some an) (h : decodeM an w = .ok i) : i.HasWord w := by
  unfold decodeM at h
  split at h
  all_goals cases h
  all_goals exact Instr.hasWord_of_encode_eq rfl (packM_fields hm ‹_› ha ‹_›)

theorem hasWord_of_decodeZ {w : Word} {i : Instr} (hm : (modeF w).toNat = 1) (h : decodeZ w = .ok i) : i.HasWord w := by
  unfold decodeZ at h
  split at h
  all_goals cases h
  all_goals exact Instr.hasWord_of_encode_eq rfl (packZ_fields hm ‹_› ‹_› ‹_›)

/-- An R-type instruction that ignores `Rk`, as the shifts do, or `Rj`, as `mov`, `set`, `sef` and `mvl` do. -/
theorem and_of_decodeR_rj {w : Word} {op : BitVec 3} {fn : BitVec 2} (hm : (modeF w).toNat = 2)
    (ho : (opF w).toNat = op.toNat) (hf : (fnF w).toNat = fn.toNat) :
    w &&& 0xFFF8 = packR op (regBits (riF w)) fn (rjF w) (rjF w) &&& 0xFFF8 := by
  conv_lhs => rw [← packR_fields hm (regBits_riF w) ho hf]
  exact packR_and_rj ..

theorem and_of_decodeR_rk {w : Word} {op : BitVec 3} {fn : BitVec 2} (hm : (modeF w).toNat = 2)
    (ho : (opF w).toNat = op.toNat) (hf : (fnF w).toNat = fn.toNat) :
    w &&& 0xFFC7 = packR op (regBits (riF w)) fn (rkF w) (rkF w) &&& 0xFFC7 := by
  conv_lhs => rw [← packR_fields hm (regBits_riF w) ho hf]
  exact packR_and_rk ..

theorem hasWord_of_decodeR {w : Word} {i : Instr} (hm : (modeF w).toNat = 2) (h : decodeR w = .ok i) : i.HasWord w := by
  unfold decodeR at h
  split at h
  all_goals cases h
  case h_1 | h_3 | h_5 | h_7 => exact ⟨rfl, and_of_decodeR_rj hm ‹_› ‹_›⟩
  case h_11 | h_12 | h_13 | h_26 => exact ⟨rfl, and_of_decodeR_rk hm ‹_› ‹_›⟩
  case h_9 | h_10 => exact Instr.hasWord_of_encode_eq rfl (packR_fields hm (ccBits_ccF w) ‹_› ‹_›)
  all_goals exact Instr.hasWord_of_encode_eq rfl (packR_fields hm (regBits_riF w) ‹_› ‹_›)

theorem hasWord_of_decodeJ {w : Word} {i : Instr} (hm : (modeF w).toNat = 3) (hs : (sF w).toNat = 0)
    (hpc : riF w = .pc) (h : decodeJ w = .ok i) : i.HasWord w := by
  unfold decodeJ at h
  split at h
  all_goals cases h
  all_goals
    exact Instr.hasWord_of_encode_eq rfl ((congrArg (packI _ · _ _) hpc.symm).trans (packI_fields hm hs ‹_› ‹_›))

theorem hasWord_of_decodeGprI {w : Word} {i : Instr} (hm : (modeF w).toNat = 3) (hs : (sF w).toNat = 0)
    (hpc : riF w ≠ .pc) (h : decodeGprI w = .ok i) : i.HasWord w := by
  unfold decodeGprI at h
  split at h
  all_goals cases h
  all_goals exact Instr.hasWord_of_encode_eq (bne_iff_ne.mpr hpc) (packI_fields hm hs ‹_› ‹_›)

theorem hasWord_of_decodeI {w : Word} {i : Instr} (hm : (modeF w).toNat = 3) (h : decodeI w = .ok i) : i.HasWord w := by
  unfold decodeI at h
  split at h
  · cases h
  · have hs : (sF w).toNat = 0 := by
      have hlt := (sF w).isLt
      omega
    split at h
    · exact hasWord_of_decodeJ hm hs (riF_eq_pc.mpr ‹_›) h
    · exact hasWord_of_decodeGprI hm hs (fun hpc => ‹¬ _› (riF_eq_pc.mp hpc)) h

/-- `nop` and `pfx` share `Mode` and `op` 0; the rest of the word is the immediate (30_encoding.md R65). -/
theorem pfx_fields {w : Word} (hm : modeF w = 0) (ho : opF w = 0) : (0 : BitVec 5) ++ imm11F w = w := by
  have hlt := w.isLt
  have hmode : w.toNat >>> 14 % 4 = 0 := by simpa [modeF] using congrArg BitVec.toNat hm
  have hop : w.toNat >>> 11 % 8 = 0 := by simpa [opF] using congrArg BitVec.toNat ho
  have himm : (imm11F w).toNat = w.toNat % 2048 := by simp [imm11F]
  apply BitVec.eq_of_toNat_eq
  rw [BitVec.toNat_append, himm, BitVec.ofNat_eq_ofNat, BitVec.toNat_zero, Nat.zero_shiftLeft, Nat.zero_or]
  omega

theorem hasWord_of_decodeMode0 {w : Word} {i : Instr} (hm : (modeF w).toNat = 0) (h : decodeMode0 w = .ok i) :
    i.HasWord w := by
  have hm0 : modeF w = 0 := BitVec.eq_of_toNat_eq hm
  unfold decodeMode0 at h
  split at h
  case isTrue hop =>
    have hw : (0 : BitVec 5) ++ imm11F w = w := pfx_fields hm0 (BitVec.eq_of_toNat_eq hop)
    split at h
    case isTrue hk =>
      cases h
      have hk0 : imm11F w = 0 := BitVec.eq_of_toNat_eq hk
      rw [hk0] at hw
      exact Instr.hasWord_of_encode_eq rfl hw
    case isFalse hk =>
      cases h
      have hwf : (Instr.pfx (imm11F w)).wf = true := bne_iff_ne.mpr fun e => hk (congrArg BitVec.toNat e)
      exact Instr.hasWord_of_encode_eq hwf hw
  case isFalse =>
    split at h
    case h_1 an ha => exact hasWord_of_decodeM hm ha h
    case h_2 ha =>
      have hf : fnF w = 0 := aregOfBits_eq_none.mp ha
      split at h
      case h_1 ho hs =>
        cases h
        exact ⟨rfl, and_of_hlt_fields hm0 (BitVec.eq_of_toNat_eq ho) hf (BitVec.eq_of_toNat_eq hs)⟩
      case h_2 ho hs =>
        cases h
        refine ⟨rfl, ?_⟩
        rw [encode, regBits_riF]
        exact (and_of_lp_fields hm0 (BitVec.eq_of_toNat_eq ho) hf (BitVec.eq_of_toNat_eq hs))
      case h_3 => cases h

/-- What decodes is a word of a well-formed instruction. -/
theorem hasWord_of_decode {w : Word} {i : Instr} (h : decode w = .ok i) : i.HasWord w := by
  unfold decode at h
  split at h
  case h_1 hm => exact hasWord_of_decodeMode0 hm h
  case h_2 hm => exact hasWord_of_decodeZ hm h
  case h_3 hm => exact hasWord_of_decodeR hm h
  case h_4 h0 h1 h2 =>
    have hm : (modeF w).toNat = 3 := by
      have hlt := (modeF w).isLt
      rw [imp_false] at h0 h1 h2
      omega
    exact hasWord_of_decodeI hm h


/-! ## From the instruction to its words -/

@[simp] theorem aregOfBits_zero : aregOfBits 0#2 = none := rfl

/-- The decoder reads every well-formed instruction back from the word of its format (30_encoding.md R61 to R65). -/
theorem decode_encode {i : Instr} (hwf : i.wf = true) : decode (encode i) = .ok i := by
  cases i with
  | nop => rfl
  | pfx k =>
    have hk : k.toNat ≠ 0 := fun e => (bne_iff_ne.mp hwf : k ≠ 0) (BitVec.eq_of_toNat_eq e)
    simp [encode, decode, decodeMode0, hk]
  | hlt => rfl
  | lp ri rk => simp [encode, decode, decodeMode0]
  | cmpML ri an k | movML ri an k | movMS ri an k | addML ri an k | addMS ri an k | subML ri an k | subMS ri an k
  | andML ri an k | andMS ri an k | adtML ri an k | adtMS ri an k =>
    rw [encode, decode_packM (by decide)]
    simp [decodeM, packM]
  | cmpZL ri k | cpcZL ri k | movZL ri k | movZS ri k | setZL ri k | setZS ri k | sefZL ri k | sefZS ri k
  | selZL ri k | selZS ri k | addZL ri k | addZS ri k | dadZL ri k | dadZS ri k | adcZL ri k | adcZS ri k
  | dacZL ri k | dacZS ri k | subZL ri k | subZS ri k | rsbZL ri k | rsbZS ri k | sbcZL ri k | sbcZS ri k
  | dscZL ri k | dscZS ri k | andZL ri k | andZS ri k | orZL ri k | orZS ri k | xorZL ri k | xorZS ri k
  | mvlZL ri k | mvlZS ri k | adtZL ri k | adtZS ri k | adfZL ri k | adfZS ri k | sbtZL ri k | sbtZS ri k
  | sbfZL ri k | sbfZS ri k =>
    rw [encode, decode_packZ]
    simp [decodeZ, packZ]
  | sr1R ri rj | rr1R ri rj rk | sr4R ri rj | rr4R ri rj rk | sl1R ri rj | rl1R ri rj rk | sl4R ri rj
  | rl4R ri rj rk | cmpR cc rj rk | cpcR cc rj rk | movR ri rk | setR ri rk | sefR ri rk | selR ri rj rk
  | addR ri rj rk | dadR ri rj rk | adcR ri rj rk | dacR ri rj rk | subR ri rj rk | rsbR ri rj rk | sbcR ri rj rk
  | dscR ri rj rk | andR ri rj rk | orR ri rj rk | xorR ri rj rk | mvlR ri rk | adtR ri rj rk | adfR ri rj rk
  | sbtR ri rj rk | sbfR ri rj rk =>
    rw [encode, decode_packR]
    simp [decodeR, packR, movSrcF, Config.rMovSrcField]
  | cmpI ri k | cpcI ri k | movI ri k | setI ri k | sefI ri k | selI ri k | addI ri k | dadI ri k | adcI ri k
  | dacI ri k | subI ri k | rsbI ri k | sbcI ri k | dscI ri k | andI ri k | orI ri k | xorI ri k | mvlI ri k
  | adtI ri k | adfI ri k | sbtI ri k | sbfI ri k =>
    have hri : ri ≠ .pc := bne_iff_ne.mp hwf
    rw [encode, decode_packI, if_neg hri]
    simp [decodeGprI, packI]
  | j k | bPlus k | bMinus k | jl k | btPlus k | bfPlus k | btMinus k | bfMinus k =>
    rw [encode, decode_packI, if_pos rfl]
    simp [decodeJ, packI]

/-- Words that agree under a mask agree on every field that the mask covers. -/
theorem extractLsb'_eq_of_and {w e m : Word} {k n : Nat} (hm : m.extractLsb' k n = BitVec.allOnes n)
    (h : w &&& m = e &&& m) : w.extractLsb' k n = e.extractLsb' k n := by
  have hfield := congrArg (BitVec.extractLsb' k n) h
  simpa only [BitVec.extractLsb'_and, hm, BitVec.and_allOnes] using hfield

section
variable {w : Word}

theorem decode_of_hlt_bits (h : w &&& 0xF8E0 = encode .hlt &&& 0xF8E0) : decode w = .ok .hlt := by
  have hm : modeF w = 0 := extractLsb'_eq_of_and (by decide) h
  have ho : opF w = 1 := extractLsb'_eq_of_and (by decide) h
  have hf : fnF w = 0 := extractLsb'_eq_of_and (by decide) h
  have hs : sF w = 0 := extractLsb'_eq_of_and (by decide) h
  simp [decode, decodeMode0, hm, ho, hf, hs]

theorem decode_of_lp_bits {ri rk : Reg} (h : w &&& 0xFFE7 = encode (.lp ri rk) &&& 0xFFE7) :
    decode w = .ok (.lp ri rk) := by
  have hm : modeF w = modeF (encode (.lp ri rk)) := extractLsb'_eq_of_and (by decide) h
  have ho : opF w = opF (encode (.lp ri rk)) := extractLsb'_eq_of_and (by decide) h
  have hf : fnF w = fnF (encode (.lp ri rk)) := extractLsb'_eq_of_and (by decide) h
  have hs : sF w = sF (encode (.lp ri rk)) := extractLsb'_eq_of_and (by decide) h
  have hi : riF w = riF (encode (.lp ri rk)) := congrArg regOfBits (extractLsb'_eq_of_and (by decide) h)
  have hk : rkF w = rkF (encode (.lp ri rk)) := congrArg regOfBits (extractLsb'_eq_of_and (by decide) h)
  simp [decode, decodeMode0, hm, ho, hf, hs, hi, hk, encode]

variable {op : BitVec 3} {fn : BitVec 2} {ri rj rk : Reg}

/-- The fields of an R-type word whose `Rk` bits are ignored. -/
theorem fields_of_rj_bits (h : w &&& 0xFFF8 = packR op (regBits ri) fn rj rk &&& 0xFFF8) :
    modeF w = 2 ∧ opF w = op ∧ fnF w = fn ∧ riF w = ri ∧ rjF w = rj := by
  have hm : modeF w = modeF (packR op (regBits ri) fn rj rk) := extractLsb'_eq_of_and (by decide) h
  have ho : opF w = opF (packR op (regBits ri) fn rj rk) := extractLsb'_eq_of_and (by decide) h
  have hf : fnF w = fnF (packR op (regBits ri) fn rj rk) := extractLsb'_eq_of_and (by decide) h
  have hi : riF w = riF (packR op (regBits ri) fn rj rk) := congrArg regOfBits (extractLsb'_eq_of_and (by decide) h)
  have hj : rjF w = rjF (packR op (regBits ri) fn rj rk) := congrArg regOfBits (extractLsb'_eq_of_and (by decide) h)
  simp [hm, ho, hf, hi, hj, packR]

/-- The fields of an R-type word whose `Rj` bits are ignored. -/
theorem fields_of_rk_bits (h : w &&& 0xFFC7 = packR op (regBits ri) fn rj rk &&& 0xFFC7) :
    modeF w = 2 ∧ opF w = op ∧ fnF w = fn ∧ riF w = ri ∧ rkF w = rk := by
  have hm : modeF w = modeF (packR op (regBits ri) fn rj rk) := extractLsb'_eq_of_and (by decide) h
  have ho : opF w = opF (packR op (regBits ri) fn rj rk) := extractLsb'_eq_of_and (by decide) h
  have hf : fnF w = fnF (packR op (regBits ri) fn rj rk) := extractLsb'_eq_of_and (by decide) h
  have hi : riF w = riF (packR op (regBits ri) fn rj rk) := congrArg regOfBits (extractLsb'_eq_of_and (by decide) h)
  have hk : rkF w = rkF (packR op (regBits ri) fn rj rk) := congrArg regOfBits (extractLsb'_eq_of_and (by decide) h)
  simp [hm, ho, hf, hi, hk, packR]

end

/-- The bits an instruction uses are enough to read it: the two special words, the R-type words that ignore a source
field, and the words used to the last bit. -/
theorem decode_of_hasWord {w : Word} {i : Instr} (h : i.HasWord w) : decode w = .ok i := by
  obtain ⟨hwf, hbits⟩ := h
  cases i with
  | hlt => exact decode_of_hlt_bits hbits
  | lp ri rk => exact decode_of_lp_bits hbits
  | sr1R ri rj | sr4R ri rj | sl1R ri rj | sl4R ri rj =>
    obtain ⟨hm, ho, hf, hi, hj⟩ := fields_of_rj_bits hbits
    simp [decode, decodeR, hm, ho, hf, hi, hj]
  | movR ri rk | setR ri rk | sefR ri rk | mvlR ri rk =>
    obtain ⟨hm, ho, hf, hi, hk⟩ := fields_of_rk_bits hbits
    simp [decode, decodeR, movSrcF, Config.rMovSrcField, hm, ho, hf, hi, hk]
  | _ =>
    have hw : w = encode _ := (BitVec.and_allOnes.symm.trans hbits).trans BitVec.and_allOnes
    rw [hw]
    exact decode_encode hwf

/-- A word decodes to `i` exactly if it is the word of the well-formed `i` on the bits that `i` uses. -/
theorem decode_eq_ok_iff {w : Word} {i : Instr} : decode w = .ok i ↔ i.HasWord w :=
  ⟨hasWord_of_decode, decode_of_hasWord⟩

theorem Instr.hasWord_encode {i : Instr} (hwf : i.wf = true) : i.HasWord (encode i) :=
  Instr.hasWord_of_encode_eq hwf rfl

theorem Instr.HasWord.of_same_bits {i : Instr} {w w' : Word} (h : i.HasWord w)
    (hbits : w' &&& i.usedBits = w &&& i.usedBits) : i.HasWord w' := by
  obtain ⟨hwf, hw⟩ := h
  exact ⟨hwf, hbits.trans hw⟩

/-- Settles O56: the word of `i` is a word of `i`. -/
theorem decodeReadsBackEncode : Obligations.DecodeReadsBackEncode :=
  fun _ hwf => decode_eq_ok_iff.mpr (Instr.hasWord_encode hwf)

/-- Settles O57, by the cases of the decoder: its fields, packed again, are the word. -/
theorem encodeReadsBackDecode : Obligations.EncodeReadsBackDecode :=
  fun _ _ h => decode_eq_ok_iff.mp h

/-- Settles O58: being a word of `i` is said of the bits that `i` uses alone. -/
theorem ignoredBitsAreIgnored : Obligations.IgnoredBitsAreIgnored :=
  fun _ _ _ h hbits => decode_eq_ok_iff.mpr ((decode_eq_ok_iff.mp h).of_same_bits hbits)

end Sys2Proof

/-! Which words the decoder refuses (30_encoding.md R74): the low five bits of a word have no part in that, so the table
of the eighteen rows is compared with the decoder on the upper eleven. -/

namespace Sys2Proof

/-! ## The low five bits -/

/-- `w` with its low five bits cleared. -/
def Word.upper (w : Word) : Word := w &&& 0xFFE0

/-- A mask of the upper eleven bits sees the same word with its low bits cleared. -/
theorem Word.upper_and (w : Word) {m : Word} (hm : 0xFFE0 &&& m = m) : w.upper &&& m = w &&& m := by
  rw [Word.upper, BitVec.and_assoc, hm]

/-- A field of the upper eleven bits is the same with the low bits cleared. -/
theorem Word.upper_field (w : Word) {k n : Nat} (h : (0xFFE0 : Word).extractLsb' k n = BitVec.allOnes n) :
    w.upper.extractLsb' k n = w.extractLsb' k n :=
  extractLsb'_eq_of_and h (w.upper_and rfl)

theorem Word.upper_eq_append (w : Word) : w.upper = w.extractLsb' 5 11 ++ 0#5 := by
  apply BitVec.eq_of_getLsbD_eq
  intro i hi
  simp only [Word.upper, BitVec.getLsbD_and, BitVec.getLsbD_append, BitVec.getLsbD_extractLsb']
  interval_cases i <;> simp

section
variable {w e : Word}

theorem decodeM_isOk_congr {an : AReg} (ho : opF w = opF e) (hs : sF w = sF e) :
    (decodeM an w).isOk = (decodeM an e).isOk := by
  unfold decodeM
  rw [ho, hs]
  split <;> rfl

theorem decodeZ_isOk_congr (ho : opF w = opF e) (hf : fnF w = fnF e) (hs : sF w = sF e) :
    (decodeZ w).isOk = (decodeZ e).isOk := by
  unfold decodeZ
  rw [ho, hf, hs]
  split <;> rfl

theorem decodeR_isOk_congr (ho : opF w = opF e) (hf : fnF w = fnF e) : (decodeR w).isOk = (decodeR e).isOk := by
  unfold decodeR
  rw [ho, hf]
  split <;> rfl

theorem decodeJ_isOk_congr (ho : opF w = opF e) (hf : fnF w = fnF e) : (decodeJ w).isOk = (decodeJ e).isOk := by
  unfold decodeJ
  rw [ho, hf]
  split <;> rfl

theorem decodeGprI_isOk_congr (ho : opF w = opF e) (hf : fnF w = fnF e) :
    (decodeGprI w).isOk = (decodeGprI e).isOk := by
  unfold decodeGprI
  rw [ho, hf]
  split <;> rfl

theorem decodeI_isOk_congr (ho : opF w = opF e) (hd : destF w = destF e) (hf : fnF w = fnF e) (hs : sF w = sF e) :
    (decodeI w).isOk = (decodeI e).isOk := by
  unfold decodeI
  rw [hs, hd]
  split
  · rfl
  · split
    · exact decodeJ_isOk_congr ho hf
    · exact decodeGprI_isOk_congr ho hf

theorem decodeMode0_isOk_congr (ho : opF w = opF e) (hf : fnF w = fnF e) (hs : sF w = sF e) :
    (decodeMode0 w).isOk = (decodeMode0 e).isOk := by
  unfold decodeMode0
  rw [ho, hf, hs]
  split
  · split <;> split <;> rfl
  · split
    · exact decodeM_isOk_congr ho hs
    · split <;> rfl

/-- The fields that decide between an instruction and a refusal stand in the upper eleven bits. -/
theorem decode_isOk_congr (hm : modeF w = modeF e) (ho : opF w = opF e) (hd : destF w = destF e)
    (hf : fnF w = fnF e) (hs : sF w = sF e) : (decode w).isOk = (decode e).isOk := by
  unfold decode
  rw [hm]
  split
  · exact decodeMode0_isOk_congr ho hf hs
  · exact decodeZ_isOk_congr ho hf hs
  · exact decodeR_isOk_congr ho hf
  · exact decodeI_isOk_congr ho hd hf hs

end

theorem decode_isOk_upper (w : Word) : (decode w.upper).isOk = (decode w).isOk :=
  decode_isOk_congr (w.upper_field (by decide)) (w.upper_field (by decide)) (w.upper_field (by decide))
    (w.upper_field (by decide)) (w.upper_field (by decide))

theorem undocumentedRow_upper (w : Word) : Word.undocumentedRow w.upper = Word.undocumentedRow w := by
  have hf : fnF w.upper = fnF w := w.upper_field (by decide)
  simp (disch := decide) only [Word.undocumentedRow, hf, Word.upper_and]

/-- The decoder against the eighteen rows, on every value of the upper eleven bits. -/
theorem decode_isOk_append (x : BitVec 11) :
    (decode (x ++ 0#5)).isOk = !Word.undocumentedRow (x ++ 0#5) := by
  revert x
  decide +kernel

/-- The decoder accepts exactly the words of no undocumented row. -/
theorem decode_isOk (w : Word) : (decode w).isOk = !Word.undocumentedRow w := by
  rw [← decode_isOk_upper, ← undocumentedRow_upper, Word.upper_eq_append]
  exact decode_isOk_append _

/-! ## A refusal names the word -/

/-- A part of the decoder that refuses `w` does so by name. -/
def RefusesByName (x : Except DecodeError Instr) (w : Word) : Prop := ∀ e, x = .error e → e = .undocumented w

theorem refusesByName_ok (i : Instr) (w : Word) : RefusesByName (.ok i) w := fun _ h => by cases h

theorem refusesByName_undoc (w : Word) : RefusesByName (undoc w) w := fun _ h => by cases h; rfl

section
variable (w : Word)

theorem decodeM_refusesByName (an : AReg) : RefusesByName (decodeM an w) w := by
  unfold decodeM
  split
  case h_12 => exact refusesByName_undoc w
  all_goals exact refusesByName_ok _ w

theorem decodeZ_refusesByName : RefusesByName (decodeZ w) w := by
  unfold decodeZ
  split
  case h_43 => exact refusesByName_undoc w
  all_goals exact refusesByName_ok _ w

theorem decodeR_refusesByName : RefusesByName (decodeR w) w := by
  unfold decodeR
  split
  case h_31 => exact refusesByName_undoc w
  all_goals exact refusesByName_ok _ w

theorem decodeJ_refusesByName : RefusesByName (decodeJ w) w := by
  unfold decodeJ
  split
  case h_9 => exact refusesByName_undoc w
  all_goals exact refusesByName_ok _ w

theorem decodeGprI_refusesByName : RefusesByName (decodeGprI w) w := by
  unfold decodeGprI
  split
  case h_23 => exact refusesByName_undoc w
  all_goals exact refusesByName_ok _ w

theorem decodeI_refusesByName : RefusesByName (decodeI w) w := by
  unfold decodeI
  split
  · exact refusesByName_undoc w
  · split
    · exact decodeJ_refusesByName w
    · exact decodeGprI_refusesByName w

theorem decodeMode0_refusesByName : RefusesByName (decodeMode0 w) w := by
  unfold decodeMode0
  split
  · split
    · exact refusesByName_ok _ w
    · exact refusesByName_ok _ w
  · split
    · exact decodeM_refusesByName w _
    · split
      · exact refusesByName_ok _ w
      · exact refusesByName_ok _ w
      · exact refusesByName_undoc w

theorem decode_refusesByName : RefusesByName (decode w) w := by
  unfold decode
  split
  · exact decodeMode0_refusesByName w
  · exact decodeZ_refusesByName w
  · exact decodeR_refusesByName w
  · exact decodeI_refusesByName w

end

/-- Settles O59: the decoder answers an instruction off the rows, and refuses by name on them. -/
theorem undocumentedWordsAreTheTable : Obligations.UndocumentedWordsAreTheTable := by
  unfold Obligations.UndocumentedWordsAreTheTable
  intro w
  have hok := decode_isOk w
  have hname := decode_refusesByName w
  cases hdec : decode w with
  | ok i =>
    have hrow : Word.undocumentedRow w = false := by simpa [hdec, Except.isOk, Except.toBool] using hok
    simp [hrow]
  | error e =>
    have hrow : Word.undocumentedRow w = true := by simpa [hdec, Except.isOk, Except.toBool] using hok
    simp [hrow, hname e hdec]

/-- Settles O60: each word is read field by field. -/
theorem wordsOfTheExamples : Obligations.WordsOfTheExamples := by
  unfold Obligations.WordsOfTheExamples
  decide

end Sys2Proof

/-! The step reads the word at `pc`, decodes it and runs it (40_cycle_and_prefix.md R90). -/

namespace Sys2Proof.Machine

section
variable {s : State} {w : Word}

/-- A halted machine stands still (48_nop_hlt.md R232). -/
theorem step_of_halted (h : s.halted = true) : step s = .next s := if_pos h

/-- A running machine executes what it fetches. -/
theorem step_of_running (h : s.halted = false) : step s = withVal s.fetch fun i => exec i s := by
  simp [step, h]

theorem State.fetch_of_decode {i : Instr} (hread : s.readProg s.pc = .ok w) (hdec : decode w = .ok i) :
    s.fetch = .ok i := by
  simp [State.fetch, hread, hdec]

theorem State.fetch_of_undocumented (hread : s.readProg s.pc = .ok w) (hdec : decode w = .error (.undocumented w)) :
    s.fetch = .error (.undocumented w) := by
  simp [State.fetch, hread, hdec]

theorem State.fetch_of_fault {f : Fault} (hread : s.readProg s.pc = .error f) : s.fetch = .error f := by
  simp [State.fetch, hread]

/-- A fetch that stops is the fault of the step. -/
theorem step_of_fetch_error {f : Fault} (h : s.halted = false) (hfetch : s.fetch = .error f) : step s = .fault f := by
  rw [step_of_running h, hfetch]
  rfl

end

end Sys2Proof.Machine

namespace Sys2Proof

open Sys2Proof.Machine

/-- Settles O49. -/
theorem stepRunsDecodedInstruction : Obligations.StepRunsDecodedInstruction := by
  unfold Obligations.StepRunsDecodedInstruction
  intro s w i hrun hread hdec
  rw [step_of_running hrun, State.fetch_of_decode hread hdec, withVal_ok]

/-- Settles O50: the words of the rows are those that the decoder refuses by name. -/
theorem stepStopsAndHalts : Obligations.StepStopsAndHalts := by
  unfold Obligations.StepStopsAndHalts
  refine ⟨fun s w hrun hread hrow => ?_, fun s hhalt => step_of_halted hhalt⟩
  have hdec : decode w = .error (.undocumented w) := (undocumentedWordsAreTheTable w).mpr hrow
  exact step_of_fetch_error hrun (State.fetch_of_undocumented hread hdec)

end Sys2Proof

/-! The arithmetic instructions (41_arithmetic.md R113 to R121), each one meaning over its operand form. The order of
`sub` exchanges the sources in the store forms (R119), which `Effect.ordered` says once for the four that subtract. -/

namespace Sys2Proof.Machine

/-- The claim `P` of minuend and subtrahend, said of the sources of the form `f` (41_arithmetic.md R119). -/
def Effect.ordered (f : Form) (P : Effect) : Effect :=
  fun i s d a b => P i s d (f.subOrder a b).1 (f.subOrder a b).2

/-- With the operands at hand a subtraction is its continuation on minuend and subtrahend. -/
theorem Form.Operands.withSub_eq {f : Form} {s : State} {a b : Word} (h : f.Operands s a b)
    (k : Word → Word → Answer) : f.withSub s k = k (f.subOrder a b).1 (f.subOrder a b).2 :=
  h.withSources_eq _

/-! ## How an arithmetic instruction completes -/

section
variable {s : State} {d : Dest} (hd : ∀ ea, d = .mem ea → ea.toNat < s.dataWords) (r : Word) (carry : Bool)
include hd

theorem completes_setArith :
    Completes (finish (s.setArith r carry) d r) s d r fun t => t.flagsAre (isZero r) carry (isZero r) :=
  completes_finish (s.sameBut_setArith r carry) hd fun _ ht hc hz => ⟨ht, hc, hz⟩

theorem completes_setCarryIn :
    Completes (finish (s.setCarryIn r carry) d r) s d r fun t =>
      t.flagsAre (s.z && isZero r) carry (s.z && isZero r) :=
  completes_finish (s.sameBut_setCarryIn r carry) hd fun _ ht hc hz => ⟨ht, hc, hz⟩

end

/-! ## Binary arithmetic -/

theorem sub16_true_cout (p q : Word) : (sub16 p q true).cout = decide (q.toNat ≤ p.toNat) := sub16_cout p q true

theorem add16_r (a b : Word) (cin : Bool) : (add16 a b cin).r = a + b + BitVec.ofNat 16 cin.toNat := by
  simp [add16, BitVec.ofNat_add]

/-- What the borrow takes is the complement of C. -/
def State.borrow (s : State) : Nat := if s.c then 0 else 1

theorem State.borrow_eq (s : State) : s.borrow = 1 - s.c.toNat := by
  unfold State.borrow
  cases s.c <;> rfl

theorem sub16_r (p q : Word) (cin : Bool) : (sub16 p q cin).r = p - q - BitVec.ofNat 16 (1 - cin.toNat) := by
  cases cin
  case true => simp [sub16_true_r]
  case false =>
    apply BitVec.eq_of_toNat_eq
    have hp := p.isLt
    have hq := q.isLt
    rw [sub16_r_toNat, BitVec.toNat_sub, BitVec.toNat_sub]
    simp only [Bool.toNat_false, Nat.sub_zero, BitVec.toNat_ofNat]
    omega

/-- What R115 says of one `sub`, given minuend and subtrahend. -/
def subEffect : Effect :=
  Yields (fun _ p q => p - q) fun _ p q t =>
    t.flagsAre (isZero (p - q)) (decide (q.toNat ≤ p.toNat)) (isZero (p - q))

/-- What R116 says of one `rsb`, given the operands in the order of `sub`. -/
def rsbEffect : Effect :=
  Yields (fun _ p q => q - p) fun _ p q t =>
    t.flagsAre (isZero (q - p)) (decide (p.toNat ≤ q.toNat)) (isZero (q - p))

/-- The sum of `adc`. -/
def State.carrySum (s : State) (a b : Word) : Word := a + b + BitVec.ofNat 16 s.c.toNat

/-- What R113 and R120 say of one `adc`. -/
def adcEffect : Effect :=
  Yields State.carrySum fun s a b t =>
    t.flagsAre (s.z && isZero (s.carrySum a b)) (decide (65536 ≤ a.toNat + b.toNat + s.c.toNat))
      (s.z && isZero (s.carrySum a b))

/-- The difference of `sbc`. -/
def State.borrowDiff (s : State) (p q : Word) : Word := p - q - BitVec.ofNat 16 s.borrow

/-- What R117 and R120 say of one `sbc`, given minuend and subtrahend. -/
def sbcEffect : Effect :=
  Yields State.borrowDiff fun s p q t =>
    t.flagsAre (s.z && isZero (s.borrowDiff p q)) (decide (q.toNat + s.borrow ≤ p.toNat))
      (s.z && isZero (s.borrowDiff p q))

section
variable {f : Form} {i : Instr}

theorem aluSub_gives (hexec : ∀ s, exec i s = aluSub f s) : f.Gives i (subEffect.ordered f) := by
  intro s a b hops
  unfold Effect.ordered subEffect Yields
  rw [hexec, aluSub, hops.withSub_eq, sub16_true_r, sub16_true_cout]
  exact completes_setArith hops.installed _ _

theorem aluRsb_gives (hexec : ∀ s, exec i s = aluRsb f s) : f.Gives i (rsbEffect.ordered f) := by
  intro s a b hops
  unfold Effect.ordered rsbEffect Yields
  rw [hexec, aluRsb, hops.withSub_eq, sub16_true_r, sub16_true_cout]
  exact completes_setArith hops.installed _ _

theorem aluAdc_gives (hexec : ∀ s, exec i s = aluAdc f s) : f.Gives i adcEffect := by
  intro s a b hops
  unfold adcEffect Yields State.carrySum
  rw [hexec, aluAdc, hops.withSources_eq, add16_r, add16_cout]
  exact completes_setCarryIn hops.installed _ _

theorem aluSbc_gives (hexec : ∀ s, exec i s = aluSbc f s) : f.Gives i (sbcEffect.ordered f) := by
  intro s a b hops
  unfold Effect.ordered sbcEffect Yields State.borrowDiff
  rw [hexec, aluSbc, hops.withSub_eq, sub16_r, sub16_cout, ← State.borrow_eq]
  exact completes_setCarryIn hops.installed _ _

end

/-! ## BCD (41_arithmetic.md R121) -/

/-- Packed decimal words are the valid ones, each for the number it stands for. -/
theorem isDecimal_iff {w : Word} {n : Nat} : IsDecimal w n ↔ bcdValid w = true ∧ bcdDec w = n := by
  constructor
  · rintro ⟨d3, d2, d1, d0, h3, h2, h1, h0, hw, rfl⟩
    obtain ⟨e3, e2, e1, e0⟩ := bcdDigit_of_digits h3 h2 h1 h0 hw
    simp only [bcdValid, bcdDec, e0, e1, e2, e3, Bool.and_eq_true, decide_eq_true_eq]
    exact ⟨⟨⟨⟨h0, h1⟩, h2⟩, h3⟩, trivial⟩
  · rintro ⟨hvalid, rfl⟩
    simp only [bcdValid, Bool.and_eq_true, decide_eq_true_eq] at hvalid
    obtain ⟨⟨⟨h0, h1⟩, h2⟩, h3⟩ := hvalid
    refine ⟨_, _, _, _, h3, h2, h1, h0, ?_, rfl⟩
    have hw := w.isLt
    simp only [bcdDigit]
    omega

theorem isDecimal_bcdWord {n : Nat} (h : n < 10000) : IsDecimal (bcdWord n) n := isDecimal_iff.mpr (bcdWord_spec h)

section
variable {a b : Word} {x y : Nat}

/-- `dad` and `dac` of decimal operands add the numbers modulo 10000. -/
theorem bcdOp_add {op : BcdOp} (hop : op ≠ .dsc) (ha : IsDecimal a x) (hb : IsDecimal b y) (cin : Bool) :
    bcdOp op a b cin = (bcdWord ((x + y + cin.toNat) % 10000), decide (10000 ≤ x + y + cin.toNat)) := by
  obtain ⟨hva, rfl⟩ := isDecimal_iff.mp ha
  obtain ⟨hvb, rfl⟩ := isDecimal_iff.mp hb
  rw [bcdOp_valid hva hvb, if_neg hop]
  rfl

/-- `dsc` of decimal operands subtracts the numbers and the borrow modulo 10000. -/
theorem bcdOp_sub (ha : IsDecimal a x) (hb : IsDecimal b y) (s : State) :
    bcdOp .dsc a b s.c =
      (bcdWord (((x : Int) - y - s.borrow) % 10000).toNat, decide (y + s.borrow ≤ x)) := by
  obtain ⟨hva, rfl⟩ := isDecimal_iff.mp ha
  obtain ⟨hvb, rfl⟩ := isDecimal_iff.mp hb
  have hc : s.c.toNat ≤ 1 := Bool.toNat_le s.c
  have hborrow : (1 : Int) - s.c.toNat = (s.borrow : Int) := by
    rw [State.borrow_eq]
    omega
  rw [bcdOp_valid hva hvb, if_pos rfl, bcdSub, hborrow]
  refine Prod.ext rfl (decide_eq_decide.mpr ?_)
  omega

/-- An operand with a digit above 9 leaves the free value. -/
theorem bcdOp_open (h : ¬ ∃ x y, IsDecimal a x ∧ IsDecimal b y) (op : BcdOp) (cin : Bool) :
    bcdOp op a b cin = Config.bcdInvalid op a b cin := by
  apply bcdOp_invalid
  rw [Bool.and_eq_false_iff]
  by_contra hvalid
  push Not at hvalid
  obtain ⟨ha, hb⟩ := hvalid
  exact h ⟨_, _, isDecimal_iff.mpr ⟨by simpa using ha, rfl⟩, isDecimal_iff.mpr ⟨by simpa using hb, rfl⟩⟩

end

/-- What R112, R114 and R121 say of one decimal addition, with its carry in and the old Z that it keeps. -/
def bcdAddEffect (cin : State → Nat) (keep : State → Bool) : Effect := fun i s d a b =>
  ∀ x y, IsDecimal a x → IsDecimal b y → ∃ r, IsDecimal r ((x + y + cin s) % 10000) ∧
    Completes (exec i s) s d r fun t =>
      t.flagsAre (keep s && isZero r) (decide (10000 ≤ x + y + cin s)) (keep s && isZero r)

/-- What R118 and R121 say of one decimal subtraction, given minuend and subtrahend. -/
def dscEffect : Effect := fun i s d p q =>
  ∀ x y, IsDecimal p x → IsDecimal q y → ∃ r, IsDecimal r (((x : Int) - y - s.borrow) % 10000).toNat ∧
    Completes (exec i s) s d r fun t =>
      t.flagsAre (s.z && isZero r) (decide (y + s.borrow ≤ x)) (s.z && isZero r)

/-- What R121 says where an operand is not decimal: the free value of the operation is the result and the carry. -/
def bcdOpenEffect (op : BcdOp) (cin keep : State → Bool) : Effect := fun i s d a b =>
  (¬ ∃ x y, IsDecimal a x ∧ IsDecimal b y) →
    Completes (exec i s) s d (Config.bcdInvalid op a b (cin s)).1 fun t =>
      t.flagsAre (keep s && isZero (Config.bcdInvalid op a b (cin s)).1) (Config.bcdInvalid op a b (cin s)).2
        (keep s && isZero (Config.bcdInvalid op a b (cin s)).1)

section
variable {f : Form} {i : Instr}

theorem aluDad_gives (hexec : ∀ s, exec i s = aluDad f s) : f.Gives i (bcdAddEffect (fun _ => 0) fun _ => true) := by
  intro s a b hops x y ha hb
  refine ⟨_, isDecimal_bcdWord (Nat.mod_lt _ (by decide)), ?_⟩
  rw [hexec, aluDad, hops.withSources_eq, bcdOp_add (by decide) ha hb]
  exact completes_setArith hops.installed _ _

theorem aluDac_gives (hexec : ∀ s, exec i s = aluDac f s) :
    f.Gives i (bcdAddEffect (fun s => s.c.toNat) fun s => s.z) := by
  intro s a b hops x y ha hb
  refine ⟨_, isDecimal_bcdWord (Nat.mod_lt _ (by decide)), ?_⟩
  rw [hexec, aluDac, hops.withSources_eq, bcdOp_add (by decide) ha hb]
  exact completes_setCarryIn hops.installed _ _

theorem aluDsc_gives (hexec : ∀ s, exec i s = aluDsc f s) : f.Gives i (dscEffect.ordered f) := by
  intro s a b hops x y ha hb
  refine ⟨_, isDecimal_bcdWord (by omega), ?_⟩
  rw [hexec, aluDsc, hops.withSub_eq, bcdOp_sub ha hb]
  exact completes_setCarryIn hops.installed _ _

theorem aluDad_gives_open (hexec : ∀ s, exec i s = aluDad f s) :
    f.Gives i (bcdOpenEffect .dad (fun _ => false) fun _ => true) := by
  intro s a b hops hopen
  rw [hexec, aluDad, hops.withSources_eq, bcdOp_open hopen]
  exact completes_setArith hops.installed _ _

theorem aluDac_gives_open (hexec : ∀ s, exec i s = aluDac f s) :
    f.Gives i (bcdOpenEffect .dac (fun s => s.c) fun s => s.z) := by
  intro s a b hops hopen
  rw [hexec, aluDac, hops.withSources_eq, bcdOp_open hopen]
  exact completes_setCarryIn hops.installed _ _

theorem aluDsc_gives_open (hexec : ∀ s, exec i s = aluDsc f s) :
    f.Gives i ((bcdOpenEffect .dsc (fun s => s.c) fun s => s.z).ordered f) := by
  intro s a b hops hopen
  rw [hexec, aluDsc, hops.withSub_eq, bcdOp_open hopen]
  exact completes_setCarryIn hops.installed _ _

end

end Sys2Proof.Machine

namespace Sys2Proof

open Sys2Proof.Machine

/-- Settles O2: every form of `sub`, and `b-`, is the one meaning `aluSub`, whose order the store forms exchange. -/
theorem subInEveryForm : Obligations.SubInEveryForm :=
  ⟨immForm_of_gives fun _ _ => aluSub_gives fun _ => rfl,
    pcForm_of_gives fun _ => aluSub_gives fun _ => rfl,
    regForm_of_gives fun _ _ _ => aluSub_gives fun _ => rfl,
    fun _ _ => loadForm_of_gives fun _ => aluSub_gives fun _ => rfl,
    fun _ _ => storeForm_of_gives fun _ => aluSub_gives fun _ => rfl,
    fun _ => loadForm_of_gives fun _ => aluSub_gives fun _ => rfl,
    fun _ => storeForm_of_gives fun _ => aluSub_gives fun _ => rfl⟩

/-- Settles O3: every form of `rsb` is the one meaning `aluRsb`. -/
theorem rsbInEveryForm : Obligations.RsbInEveryForm :=
  ⟨immForm_of_gives fun _ _ => aluRsb_gives fun _ => rfl,
    regForm_of_gives fun _ _ _ => aluRsb_gives fun _ => rfl,
    fun _ => loadForm_of_gives fun _ => aluRsb_gives fun _ => rfl,
    fun _ => storeForm_of_gives fun _ => aluRsb_gives fun _ => rfl⟩

/-- Settles O4: every form of `adc` is the one meaning `aluAdc`. -/
theorem adcInEveryForm : Obligations.AdcInEveryForm :=
  ⟨immForm_of_gives fun _ _ => aluAdc_gives fun _ => rfl,
    regForm_of_gives fun _ _ _ => aluAdc_gives fun _ => rfl,
    fun _ => loadForm_of_gives fun _ => aluAdc_gives fun _ => rfl,
    fun _ => storeForm_of_gives fun _ => aluAdc_gives fun _ => rfl⟩

/-- Settles O5: every form of `sbc` is the one meaning `aluSbc`. -/
theorem sbcInEveryForm : Obligations.SbcInEveryForm :=
  ⟨immForm_of_gives fun _ _ => aluSbc_gives fun _ => rfl,
    regForm_of_gives fun _ _ _ => aluSbc_gives fun _ => rfl,
    fun _ => loadForm_of_gives fun _ => aluSbc_gives fun _ => rfl,
    fun _ => storeForm_of_gives fun _ => aluSbc_gives fun _ => rfl⟩

/-- Settles O6: every form of `dad` and of `dac` is the one meaning `aluDad`, `aluDac`. -/
theorem bcdAddOnDecimals : Obligations.BcdAddOnDecimals :=
  ⟨⟨immForm_of_gives fun _ _ => aluDad_gives fun _ => rfl,
      regForm_of_gives fun _ _ _ => aluDad_gives fun _ => rfl,
      fun _ => loadForm_of_gives fun _ => aluDad_gives fun _ => rfl,
      fun _ => storeForm_of_gives fun _ => aluDad_gives fun _ => rfl⟩,
    ⟨immForm_of_gives fun _ _ => aluDac_gives fun _ => rfl,
      regForm_of_gives fun _ _ _ => aluDac_gives fun _ => rfl,
      fun _ => loadForm_of_gives fun _ => aluDac_gives fun _ => rfl,
      fun _ => storeForm_of_gives fun _ => aluDac_gives fun _ => rfl⟩⟩

/-- Settles O7: every form of `dsc` is the one meaning `aluDsc`. -/
theorem bcdSubtractOnDecimals : Obligations.BcdSubtractOnDecimals :=
  ⟨immForm_of_gives fun _ _ => aluDsc_gives fun _ => rfl,
    regForm_of_gives fun _ _ _ => aluDsc_gives fun _ => rfl,
    fun _ => loadForm_of_gives fun _ => aluDsc_gives fun _ => rfl,
    fun _ => storeForm_of_gives fun _ => aluDsc_gives fun _ => rfl⟩

/-- Settles O8: off the decimal operands the same meanings go on with the free value. -/
theorem bcdOpenResultCompletes : Obligations.BcdOpenResultCompletes :=
  ⟨⟨immForm_of_gives fun _ _ => aluDad_gives_open fun _ => rfl,
      regForm_of_gives fun _ _ _ => aluDad_gives_open fun _ => rfl,
      fun _ => loadForm_of_gives fun _ => aluDad_gives_open fun _ => rfl,
      fun _ => storeForm_of_gives fun _ => aluDad_gives_open fun _ => rfl⟩,
    ⟨immForm_of_gives fun _ _ => aluDac_gives_open fun _ => rfl,
      regForm_of_gives fun _ _ _ => aluDac_gives_open fun _ => rfl,
      fun _ => loadForm_of_gives fun _ => aluDac_gives_open fun _ => rfl,
      fun _ => storeForm_of_gives fun _ => aluDac_gives_open fun _ => rfl⟩,
    ⟨immForm_of_gives fun _ _ => aluDsc_gives_open fun _ => rfl,
      regForm_of_gives fun _ _ _ => aluDsc_gives_open fun _ => rfl,
      fun _ => loadForm_of_gives fun _ => aluDsc_gives_open fun _ => rfl,
      fun _ => storeForm_of_gives fun _ => aluDsc_gives_open fun _ => rfl⟩⟩

end Sys2Proof

/-! Moves and conditional arithmetic (45_move.md, 46_conditional_arithmetic.md) read a source only where they use it
(20_memory.md R49, log 28), so their forms are given what they need and no more. -/

namespace Sys2Proof.Machine

/-- In `s` the form reads `a` as S1 if `n1` and `b` as S2 if `n2`, and a memory destination is installed. -/
structure Form.Supplies (f : Form) (s : State) (n1 n2 : Prop) (a b : Word) : Prop where
  src1 : n1 → f.src1 s = .ok a
  src2 : n2 → f.src2 s = .ok b
  installed : ∀ ea, f.dest s = .mem ea → ea.toNat < s.dataWords

/-- Where both sources are needed they are the operands of the form. -/
theorem Form.Supplies.operands {f : Form} {s : State} {n1 n2 : Prop} {a b : Word} (h : f.Supplies s n1 n2 a b)
    (h1 : n1) (h2 : n2) : f.Operands s a b :=
  ⟨h.src1 h1, h.src2 h2, h.installed⟩

/-- The claim `P` holds of `i` as the instruction whose operand form is `f`, which needs S1 in the states `n1` and S2 in
the states `n2`. -/
def Form.GivesNeeding (n1 n2 : State → Prop) (f : Form) (i : Instr) (P : Effect) : Prop :=
  ∀ s a b, f.Supplies s (n1 s) (n2 s) a b → P i s (f.dest s) a b

section
variable {n1 n2 : State → Prop} {P : Effect}

theorem immForm_of_needing {mk : Reg → Imm5 → Instr} (h : ∀ ri k, (Form.imm ri k).GivesNeeding n1 n2 (mk ri k) P) :
    ImmForm mk P :=
  fun s ri k => h ri k s _ _ ⟨fun _ => rfl, fun _ => rfl, fun _ h => nomatch h⟩

theorem pcForm_of_needing {mk : Imm5 → Instr} (h : ∀ k, (Form.imm .pc k).GivesNeeding n1 n2 (mk k) P) : PcForm mk P :=
  fun s k => h k s _ _ ⟨fun _ => rfl, fun _ => rfl, fun _ h => nomatch h⟩

theorem regForm_of_needing {mk : Reg → Reg → Reg → Instr}
    (h : ∀ ri rj rk, (Form.regs ri rj rk).GivesNeeding n1 n2 (mk ri rj rk) P) : RegForm mk P :=
  fun s ri rj rk => h ri rj rk s _ _ ⟨fun _ => rfl, fun _ => rfl, fun _ h => nomatch h⟩

/-- In a load form the data word is S2. -/
theorem loadForm_of_needing {mk : Reg → Instr} {x : Addr} (h : ∀ ri, (Form.load ri x).GivesNeeding n1 n2 (mk ri) P) :
    LoadForm n2 mk x P :=
  fun s ri _ hread => h ri s _ _ ⟨fun _ => rfl, hread, fun _ h => nomatch h⟩

/-- In a store form the old data word is S1. -/
theorem storeForm_of_needing {mk : Reg → Instr} {x : Addr} (h : ∀ ri, (Form.store ri x).GivesNeeding n1 n2 (mk ri) P) :
    StoreForm n1 mk x P := by
  refine fun s ri _ hinst hread => h ri s _ _ ⟨hread, fun _ => rfl, fun ea hdest => ?_⟩
  cases hdest
  exact hinst

end

/-! ## Moves -/

/-- The flags are kept and the value goes to the destination (45_move.md R186). -/
theorem completes_move {s : State} {d : Dest} (hd : ∀ ea, d = .mem ea → ea.toNat < s.dataWords) (v : Word) :
    Completes (finish s d v) s d v s.sameFlags :=
  completes_finish (.refl s) hd fun _ ht hc hz => ⟨ht, hc, hz⟩

/-- What R180 to R186 say of a move that writes the value `v` of T and its sources. -/
def moveEffect (v : Bool → Word → Word → Word) : Effect :=
  Yields (fun s a b => v s.t a b) fun s _ _ => s.sameFlags

section
variable {f : Form} {i : Instr}

theorem moveMov_gives (hexec : ∀ s, exec i s = moveMov f s) :
    f.GivesNeeding never always i (moveEffect fun _ _ b => b) := by
  intro s a b hsup
  unfold moveEffect Yields
  rw [hexec, moveMov, hsup.src2 trivial, withVal_ok]
  exact completes_move hsup.installed b

theorem moveSet_gives (hexec : ∀ s, exec i s = moveSet f s) :
    f.GivesNeeding never (whenT true) i (moveEffect fun T _ b => if T then b else 0) := by
  intro s a b hsup
  have hsrc : (if s.t then f.src2 s else .ok 0) = .ok (if s.t then b else 0) := by
    cases hT : s.t
    · rfl
    · exact hsup.src2 hT
  unfold moveEffect Yields
  rw [hexec, moveSet, hsrc, withVal_ok]
  exact completes_move hsup.installed _

theorem moveSef_gives (hexec : ∀ s, exec i s = moveSef f s) :
    f.GivesNeeding never (whenT false) i (moveEffect fun T _ b => if T then 0 else b) := by
  intro s a b hsup
  have hsrc : (if s.t then .ok 0 else f.src2 s) = .ok (if s.t then 0 else b) := by
    cases hT : s.t
    · exact hsup.src2 hT
    · rfl
  unfold moveEffect Yields
  rw [hexec, moveSef, hsrc, withVal_ok]
  exact completes_move hsup.installed _

theorem moveSel_gives (hexec : ∀ s, exec i s = moveSel f s) :
    f.GivesNeeding (whenT false) (whenT true) i (moveEffect fun T a b => if T then b else a) := by
  intro s a b hsup
  have hsrc : (if s.t then f.src2 s else f.src1 s) = .ok (if s.t then b else a) := by
    cases hT : s.t
    · exact hsup.src1 hT
    · exact hsup.src2 hT
  unfold moveEffect Yields
  rw [hexec, moveSel, hsrc, withVal_ok]
  exact completes_move hsup.installed _

/-! ## Conditional arithmetic -/

/-- With its condition false the instruction only goes on (46_conditional_arithmetic.md R204). -/
theorem completesNone_skip (s : State) : CompletesNone (finishNone s) s s.sameFlags :=
  completesNone_finish (.refl s) fun _ ht hc hz => ⟨ht, hc, hz⟩

theorem condAdt_gives (hexec : ∀ s, exec i s = condAdt f s) :
    f.GivesNeeding (whenT true) (whenT true) i (YieldsIfT true (· + ·)) := by
  refine fun s a b hsup => ⟨fun hT => ?_, fun hT => ?_⟩
  · rw [hexec, condAdt, if_pos hT, (hsup.operands hT hT).withSources_eq, add16_false_r]
    exact completes_move hsup.installed _
  · rw [hexec, condAdt, if_neg hT]
    exact completesNone_skip s

theorem condAdf_gives (hexec : ∀ s, exec i s = condAdf f s) :
    f.GivesNeeding (whenT false) (whenT false) i (YieldsIfT false (· + ·)) := by
  refine fun s a b hsup => ⟨fun hT => ?_, fun hT => ?_⟩
  · rw [hexec, condAdf, if_neg (by simp [hT]), (hsup.operands hT hT).withSources_eq, add16_false_r]
    exact completes_move hsup.installed _
  · rw [hexec, condAdf, if_pos (by simpa using hT)]
    exact completesNone_skip s

theorem condSbt_gives (hexec : ∀ s, exec i s = condSbt f s) :
    f.GivesNeeding (whenT true) (whenT true) i ((YieldsIfT true (· - ·)).ordered f) := by
  refine fun s a b hsup => ⟨fun hT => ?_, fun hT => ?_⟩
  · rw [hexec, condSbt, if_pos hT, (hsup.operands hT hT).withSub_eq, sub16_true_r]
    exact completes_move hsup.installed _
  · rw [hexec, condSbt, if_neg hT]
    exact completesNone_skip s

theorem condSbf_gives (hexec : ∀ s, exec i s = condSbf f s) :
    f.GivesNeeding (whenT false) (whenT false) i ((YieldsIfT false (· - ·)).ordered f) := by
  refine fun s a b hsup => ⟨fun hT => ?_, fun hT => ?_⟩
  · rw [hexec, condSbf, if_neg (by simp [hT]), (hsup.operands hT hT).withSub_eq, sub16_true_r]
    exact completes_move hsup.installed _
  · rw [hexec, condSbf, if_pos (by simpa using hT)]
    exact completesNone_skip s

end

end Sys2Proof.Machine

namespace Sys2Proof

open Sys2Proof.Machine

/-- Settles O17: every form of `mov` is the one meaning `moveMov`, which does not read S1. -/
theorem movInEveryForm : Obligations.MovInEveryForm :=
  ⟨immForm_of_needing fun _ _ => moveMov_gives fun _ => rfl,
    regForm_of_needing fun ri rj rk => moveMov_gives (f := .regs ri rj rk) fun _ => rfl,
    fun _ _ => loadForm_of_needing fun _ => moveMov_gives fun _ => rfl,
    fun _ _ => storeForm_of_needing fun _ => moveMov_gives fun _ => rfl,
    fun _ => loadForm_of_needing fun _ => moveMov_gives fun _ => rfl,
    fun _ => storeForm_of_needing fun _ => moveMov_gives fun _ => rfl⟩

/-- Settles O19: every form of `set` and of `sef` is the one meaning `moveSet`, `moveSef`, which reads S2 by T. -/
theorem setAndSefInEveryForm : Obligations.SetAndSefInEveryForm :=
  ⟨⟨immForm_of_needing fun _ _ => moveSet_gives fun _ => rfl,
      regForm_of_needing fun ri rj rk => moveSet_gives (f := .regs ri rj rk) fun _ => rfl,
      fun _ => loadForm_of_needing fun _ => moveSet_gives fun _ => rfl,
      fun _ => storeForm_of_needing fun _ => moveSet_gives fun _ => rfl⟩,
    ⟨immForm_of_needing fun _ _ => moveSef_gives fun _ => rfl,
      regForm_of_needing fun ri rj rk => moveSef_gives (f := .regs ri rj rk) fun _ => rfl,
      fun _ => loadForm_of_needing fun _ => moveSef_gives fun _ => rfl,
      fun _ => storeForm_of_needing fun _ => moveSef_gives fun _ => rfl⟩⟩

/-- Settles O20: every form of `sel` is the one meaning `moveSel`, which reads the source that T chooses. -/
theorem selInEveryForm : Obligations.SelInEveryForm :=
  ⟨immForm_of_needing fun _ _ => moveSel_gives fun _ => rfl,
    regForm_of_needing fun _ _ _ => moveSel_gives fun _ => rfl,
    fun _ => loadForm_of_needing fun _ => moveSel_gives fun _ => rfl,
    fun _ => storeForm_of_needing fun _ => moveSel_gives fun _ => rfl⟩

/-- Settles O22: every form of `adt` and of `adf`, and `bt+` and `bf+`, is the one meaning `condAdt`, `condAdf`. -/
theorem conditionalAdd : Obligations.ConditionalAdd :=
  ⟨⟨immForm_of_needing fun _ _ => condAdt_gives fun _ => rfl,
      pcForm_of_needing fun _ => condAdt_gives fun _ => rfl,
      regForm_of_needing fun _ _ _ => condAdt_gives fun _ => rfl,
      fun _ _ => loadForm_of_needing fun _ => condAdt_gives fun _ => rfl,
      fun _ _ => storeForm_of_needing fun _ => condAdt_gives fun _ => rfl,
      fun _ => loadForm_of_needing fun _ => condAdt_gives fun _ => rfl,
      fun _ => storeForm_of_needing fun _ => condAdt_gives fun _ => rfl⟩,
    ⟨immForm_of_needing fun _ _ => condAdf_gives fun _ => rfl,
      pcForm_of_needing fun _ => condAdf_gives fun _ => rfl,
      regForm_of_needing fun _ _ _ => condAdf_gives fun _ => rfl,
      fun _ => loadForm_of_needing fun _ => condAdf_gives fun _ => rfl,
      fun _ => storeForm_of_needing fun _ => condAdf_gives fun _ => rfl⟩⟩

/-- Settles O23: every form of `sbt` and of `sbf`, and `bt-` and `bf-`, is the one meaning `condSbt`, `condSbf`, whose
order the store forms exchange. -/
theorem conditionalSubtract : Obligations.ConditionalSubtract :=
  ⟨⟨immForm_of_needing fun _ _ => condSbt_gives fun _ => rfl,
      pcForm_of_needing fun _ => condSbt_gives fun _ => rfl,
      regForm_of_needing fun _ _ _ => condSbt_gives fun _ => rfl,
      fun _ => loadForm_of_needing fun _ => condSbt_gives fun _ => rfl,
      fun _ => storeForm_of_needing fun _ => condSbt_gives fun _ => rfl⟩,
    ⟨immForm_of_needing fun _ _ => condSbf_gives fun _ => rfl,
      pcForm_of_needing fun _ => condSbf_gives fun _ => rfl,
      regForm_of_needing fun _ _ _ => condSbf_gives fun _ => rfl,
      fun _ => loadForm_of_needing fun _ => condSbf_gives fun _ => rfl,
      fun _ => storeForm_of_needing fun _ => condSbf_gives fun _ => rfl⟩⟩

end Sys2Proof

/-! The rotates (43_shift_rotate.md R145 to R148): a funnel whose vacated bits come from the second register. -/

namespace Sys2Proof.Machine

/-- The vacated high bits are the low bits of the second word, the shifted bits stand below them. -/
theorem funnelRight_r_toNat {n : Nat} (hn : n ≤ 16) (a b : Word) :
    (funnelRight n a b).r.toNat = a.toNat / 2 ^ n + 2 ^ (16 - n) * (b.toNat % 2 ^ n) := by
  have hlow : a.toNat / 2 ^ n < 2 ^ (16 - n) := by
    rw [Nat.div_lt_iff_lt_mul (Nat.two_pow_pos n), ← Nat.pow_add, Nat.sub_add_cancel hn]
    exact a.isLt
  have hhigh : (b <<< (16 - n)).toNat = 2 ^ (16 - n) * (b.toNat % 2 ^ n) := by
    have hsplit : 2 ^ 16 = 2 ^ (16 - n) * 2 ^ n := by rw [← Nat.pow_add, Nat.sub_add_cancel hn]
    rw [BitVec.toNat_shiftLeft, Nat.shiftLeft_eq, Nat.mul_comm, hsplit, Nat.mul_mod_mul_left]
  rw [funnelRight, BitVec.toNat_or, BitVec.toNat_ushiftRight, Nat.shiftRight_eq_div_pow, hhigh, Nat.or_comm,
    ← Nat.two_pow_add_eq_or_of_lt hlow, Nat.add_comm]

/-- The shifted bits stand above the vacated low bits, which are the high bits of the second word. -/
theorem funnelLeft_r_toNat {n : Nat} (hn : n ≤ 16) (a b : Word) :
    (funnelLeft n a b).r.toNat = a.toNat * 2 ^ n % 65536 + b.toNat / 2 ^ (16 - n) := by
  have hlow : b.toNat / 2 ^ (16 - n) < 2 ^ n := by
    rw [Nat.div_lt_iff_lt_mul (Nat.two_pow_pos _), ← Nat.pow_add, Nat.add_sub_cancel' hn]
    exact b.isLt
  have hsplit : 65536 = 2 ^ n * 2 ^ (16 - n) := by rw [← Nat.pow_add, Nat.add_sub_cancel' hn]
  have hhigh : (a <<< n).toNat = 2 ^ n * (a.toNat % 2 ^ (16 - n)) := by
    rw [BitVec.toNat_shiftLeft, Nat.shiftLeft_eq, Nat.mul_comm, show 2 ^ 16 = 65536 from rfl, hsplit,
      Nat.mul_mod_mul_left]
  rw [funnelLeft, BitVec.toNat_or, BitVec.toNat_ushiftRight, Nat.shiftRight_eq_div_pow, hhigh,
    ← Nat.two_pow_add_eq_or_of_lt hlow, hsplit, Nat.mul_comm a.toNat, Nat.mul_mod_mul_left]

end Sys2Proof.Machine

namespace Sys2Proof

open Sys2Proof.Machine

/-- Settles O12: each rotate is a funnel by 1 or 4, which completes with the bits that left in C and T. -/
theorem rotatesOfTwoRegisters : Obligations.RotatesOfTwoRegisters := by
  unfold Obligations.RotatesOfTwoRegisters
  refine ⟨fun s ri rj rk => ⟨_, funnelRight_r_toNat (n := 1) (by decide) _ _, ?rr1⟩,
    fun s ri rj rk => ⟨_, funnelRight_r_toNat (n := 4) (by decide) _ _, ?rr4⟩,
    fun s ri rj rk => ⟨_, funnelLeft_r_toNat (n := 1) (by decide) _ _, ?rl1⟩,
    fun s ri rj rk => ⟨_, funnelLeft_r_toNat (n := 4) (by decide) _ _, ?rl4⟩⟩
  case rr1 => exact completes_finishShift s ri (funnelRight_out_iff 1 _ _)
  case rr4 => exact completes_finishShift s ri (funnelRight_out_iff 4 _ _)
  case rl1 => exact completes_finishShift s ri (funnelLeft_out_iff (n := 1) (by decide) _ _)
  case rl4 => exact completes_finishShift s ri (funnelLeft_out_iff (n := 4) (by decide) _ _)

end Sys2Proof

/-! The compares (44_compare.md): the condition code over the carry, the zero indication and the signed overflow of the
subtraction is the code over the comparisons of the numbers. -/

namespace Sys2Proof.Machine

/-- What the flags of a subtraction say, read as comparisons of minuend and subtrahend (44_compare.md R160, R161). -/
theorem cond_eq_over (cc : CC) (p q : Word) (cin z : Bool) :
    cond cc (sub16 p q cin).cout z (sub16 p q cin).r.msb (sub16 p q cin).v =
      cc.over (decide (q.toNat + (1 - cin.toNat) ≤ p.toNat)) z
        (decide (q.toInt + (1 - (cin.toNat : Int)) ≤ p.toInt)) := by
  rw [← sub16_cout, ← sub16_sign_eq_overflow]
  cases cc <;> rfl

/-- The difference is zero exactly for equal words. -/
theorem sub16_true_isZero (p q : Word) : ((sub16 p q true).r == 0) = decide (p = q) := by
  rw [sub16_true_r]
  exact decide_eq_decide.mpr sub_eq_zero

theorem compare_completes (cc : CC) (p q : Word) (s : State) :
    CompletesNone (compare cc p q s) s fun t =>
      t.flagsAre (cc.holds p q) (decide (q.toNat ≤ p.toNat)) (decide (p = q)) := by
  refine completesNone_finish (s.sameBut_setCompare ..) fun t ht hc hz => ⟨?_, ?_, ?_⟩
  · rw [ht, State.setCompare_t, cond_eq_over, sub16_true_isZero]
    simp [CC.holds]
  · rw [hc, State.setCompare_c, sub16_true_cout]
  · rw [hz, State.setCompare_z, sub16_true_isZero]

/-- What R160 to R165 say of one `cpc` with the code `cc`. -/
def cpcEffect (cc : CC) : Effect := fun i s _ p q =>
  CompletesNone (exec i s) s fun t =>
    t.flagsAre
      (cc.over (decide (q.toNat + s.borrow ≤ p.toNat)) (s.z && isZero (s.borrowDiff p q))
        (decide (q.toInt + s.borrow ≤ p.toInt)))
      (decide (q.toNat + s.borrow ≤ p.toNat)) (s.z && isZero (s.borrowDiff p q))

theorem State.borrow_eq_int (s : State) : (s.borrow : Int) = 1 - (s.c.toNat : Int) := by
  unfold State.borrow
  cases s.c <;> rfl

theorem compareCarry_gives {cc : CC} {i : Instr} {s : State} {p q : Word} (d : Dest)
    (hexec : exec i s = compareCarry cc p q s) : cpcEffect cc i s d p q := by
  have hz : (s.z && (sub16 p q s.c).r == 0) = (s.z && isZero (s.borrowDiff p q)) := by
    rw [sub16_r, ← State.borrow_eq]
    rfl
  unfold cpcEffect
  rw [hexec, compareCarry, hz]
  refine completesNone_finish (s.sameBut_setCompare ..) fun t ht hc hz => ⟨?_, ?_, hz⟩
  · rw [ht, State.setCompare_t, cond_eq_over, ← State.borrow_eq, ← State.borrow_eq_int]
  · rw [hc, State.setCompare_c, sub16_cout, ← State.borrow_eq]

/-- What R162 and R164 say of one `cmp` outside the R-type. -/
def cmpEqEffect : Effect := fun i s _ p q =>
  CompletesNone (exec i s) s fun t =>
    t.flagsAre (decide (p = q)) (decide (q.toNat ≤ p.toNat)) (decide (p = q))

section
variable {f : Form} {i : Instr}

theorem cmpEq_gives (hexec : ∀ s, exec i s = f.withSub s fun p q => compare .eq p q s) :
    f.Gives i (cmpEqEffect.ordered f) := by
  intro s a b hops
  unfold Effect.ordered cmpEqEffect
  rw [hexec, hops.withSub_eq]
  exact compare_completes .eq _ _ s

theorem cpcEq_gives (hexec : ∀ s, exec i s = f.withSub s fun p q => compareCarry .eq p q s) :
    f.Gives i ((cpcEffect .eq).ordered f) := by
  intro s a b hops
  have hmeaning := hexec s
  rw [hops.withSub_eq] at hmeaning
  exact compareCarry_gives _ hmeaning

end

end Sys2Proof.Machine

namespace Sys2Proof

open Sys2Proof.Machine

/-- Settles O13. -/
theorem compareOfRegisters : Obligations.CompareOfRegisters :=
  fun s cc rj rk => compare_completes cc (s.readReg rj) (s.readReg rk) s

/-- Settles O14: outside the R-type the code is `eq`. -/
theorem compareForEquality : Obligations.CompareForEquality :=
  ⟨immForm_of_gives fun _ _ => cmpEq_gives fun _ => rfl,
    fun _ _ => loadForm_of_gives fun _ => cmpEq_gives fun _ => rfl,
    fun _ => loadForm_of_gives fun _ => cmpEq_gives fun _ => rfl⟩

/-- Settles O15: outside the R-type the code is `eq`. -/
theorem compareWithCarry : Obligations.CompareWithCarry :=
  ⟨immForm_of_gives fun _ _ => cpcEq_gives fun _ => rfl,
    fun _ => loadForm_of_gives fun _ => cpcEq_gives fun _ => rfl,
    fun _ _ _ _ => compareCarry_gives (.reg .r0) rfl⟩

end Sys2Proof

/-! Arithmetic and comparison over two words (41_arithmetic.md R113, 44_compare.md R163): the carry, or the borrow, that
the low words leave is the one that the high words take. -/

namespace Sys2Proof.Machine

/-! ## A 32-bit number as two words -/

theorem toNat_append_words (hi lo : Word) : (hi ++ lo).toNat = hi.toNat * 65536 + lo.toNat := by
  have hlo : lo.toNat < 2 ^ 16 := lo.isLt
  rw [BitVec.toNat_append, Nat.shiftLeft_eq, Nat.mul_comm, ← Nat.two_pow_add_eq_or_of_lt hlo, Nat.mul_comm]

theorem toInt_append_words (hi lo : Word) : (hi ++ lo).toInt = hi.toInt * 65536 + lo.toNat := by
  have hhi := hi.isLt
  have hlo := lo.isLt
  rw [BitVec.toInt_eq_toNat_cond, BitVec.toInt_eq_toNat_cond, toNat_append_words]
  split <;> split <;> omega

theorem append_words_inj {hi lo hi' lo' : Word} : hi ++ lo = hi' ++ lo' ↔ hi = hi' ∧ lo = lo' := by
  have hlo := lo.isLt
  have hlo' := lo'.isLt
  simp only [← BitVec.toNat_inj, toNat_append_words]
  omega

theorem extractLsb'_low_append (hi lo : Word) : (hi ++ lo).extractLsb' 0 16 = lo := by
  have hlo := lo.isLt
  apply BitVec.eq_of_toNat_eq
  rw [BitVec.extractLsb'_toNat, toNat_append_words, Nat.shiftRight_zero]
  omega

theorem extractLsb'_high_append (hi lo : Word) : (hi ++ lo).extractLsb' 16 16 = hi := by
  have hhi := hi.isLt
  have hlo := lo.isLt
  apply BitVec.eq_of_toNat_eq
  rw [BitVec.extractLsb'_toNat, toNat_append_words, Nat.shiftRight_eq_div_pow]
  omega

/-! ## Addition with the carry between the words -/

section
variable {a b p q : Word} {c : Bool}

/-- The 32-bit sum is the sum of the high words with the carry, above the sum of the low words. -/
theorem append_add_append (hc : c = decide (65536 ≤ a.toNat + b.toNat)) :
    (p ++ a) + (q ++ b) = (p + q + BitVec.ofNat 16 c.toNat) ++ (a + b) := by
  have ha := a.isLt
  have hb := b.isLt
  apply BitVec.eq_of_toNat_eq
  simp only [BitVec.toNat_add, toNat_append_words, BitVec.toNat_ofNat]
  by_cases hcarry : 65536 ≤ a.toNat + b.toNat
  · simp only [hc, hcarry, decide_true, Bool.toNat_true]
    omega
  · simp only [hc, hcarry, decide_false, Bool.toNat_false]
    omega

/-- The carry out of the high words is the 32-bit carry. -/
theorem carry_append (hc : c = decide (65536 ≤ a.toNat + b.toNat)) :
    65536 ≤ p.toNat + q.toNat + c.toNat ↔ 2 ^ 32 ≤ (p ++ a).toNat + (q ++ b).toNat := by
  have ha := a.isLt
  have hb := b.isLt
  rw [toNat_append_words, toNat_append_words]
  by_cases hcarry : 65536 ≤ a.toNat + b.toNat
  · simp only [hc, hcarry, decide_true, Bool.toNat_true]
    omega
  · simp only [hc, hcarry, decide_false, Bool.toNat_false]
    omega

end

theorem isZero_append (hi lo : Word) : decide (hi ++ lo = (0 : BitVec 32)) = (isZero lo && isZero hi) := by
  have h : hi ++ lo = (0 : BitVec 32) ↔ lo = 0 ∧ hi = 0 :=
    (append_words_inj (hi' := 0) (lo' := 0)).trans and_comm
  rw [isZero, isZero, ← Bool.decide_and]
  exact decide_eq_decide.mpr h

/-! ## Comparison with the borrow between the words -/

section
variable {a b p q : Word} {borrow : Nat}

theorem borrow_cases (hborrow : borrow = if b.toNat ≤ a.toNat then 0 else 1) :
    (b.toNat ≤ a.toNat ∧ borrow = 0) ∨ (a.toNat < b.toNat ∧ borrow = 1) := by
  split at hborrow
  · exact .inl ⟨‹_›, hborrow⟩
  · exact .inr ⟨Nat.not_le.mp ‹_›, hborrow⟩

/-- No borrow out of the high words is no 32-bit borrow. -/
theorem noBorrow_append (hborrow : borrow = if b.toNat ≤ a.toNat then 0 else 1) :
    q.toNat + borrow ≤ p.toNat ↔ (q ++ b).toNat ≤ (p ++ a).toNat := by
  have ha := a.isLt
  have hb := b.isLt
  rw [toNat_append_words, toNat_append_words]
  rcases borrow_cases hborrow with ⟨hle, rfl⟩ | ⟨hlt, rfl⟩ <;> omega

theorem signedAtLeast_append (hborrow : borrow = if b.toNat ≤ a.toNat then 0 else 1) :
    q.toInt + borrow ≤ p.toInt ↔ (q ++ b).toInt ≤ (p ++ a).toInt := by
  have ha := a.isLt
  have hb := b.isLt
  rw [toInt_append_words, toInt_append_words]
  rcases borrow_cases hborrow with ⟨hle, rfl⟩ | ⟨hlt, rfl⟩ <;> omega

/-- Equal low words leave no borrow, so the difference of the high words says whether they are equal too. -/
theorem equal_append (hborrow : borrow = if b.toNat ≤ a.toNat then 0 else 1) :
    (a = b ∧ p - q - BitVec.ofNat 16 borrow = 0) ↔ p ++ a = q ++ b := by
  rw [append_words_inj, and_comm]
  refine and_congr_left fun hab => ?_
  subst hab
  rw [if_pos (Nat.le_refl _)] at hborrow
  rw [hborrow, BitVec.ofNat_eq_ofNat, BitVec.sub_zero]
  exact sub_eq_zero

end

end Sys2Proof.Machine

namespace Sys2Proof

open Sys2Proof.Machine

/-- Settles O9: the C and Z that `add` leaves are the carry and the zero indication that `adc` takes. -/
theorem addThenAdcIsWide : Obligations.AddThenAdcIsWide := by
  unfold Obligations.AddThenAdcIsWide
  intro s dl dh lj lk hj hk
  obtain ⟨⟨-, -, hadd, -⟩, -⟩ := addInEveryForm
  obtain ⟨-, hadc, -⟩ := adcInEveryForm
  obtain ⟨u, hu, ⟨-, hlow, -⟩, ⟨-, huC, huZ⟩, -⟩ := hadd s dl lj lk
  obtain ⟨t, ht, ⟨-, hhigh, -⟩, ⟨htT, htC, htZ⟩, -⟩ := hadc u dh hj hk
  refine ⟨u, hu, t, ht, ?_⟩
  rw [huZ] at htT htZ
  simp only [append_add_append huC, isZero_append, extractLsb'_low_append, extractLsb'_high_append]
  exact ⟨htC.trans (decide_eq_decide.mpr (carry_append huC)), htZ, htT, hlow, hhigh⟩

/-- Settles O16: the C and Z that `cmp` leaves are the borrow and the equality that `cpc` takes. -/
theorem cmpThenCpcIsWide : Obligations.CmpThenCpcIsWide := by
  unfold Obligations.CmpThenCpcIsWide
  intro s cl ch lj lk hj hk
  obtain ⟨u, hu, -, -, ⟨-, huC, huZ⟩, -⟩ := compareOfRegisters s cl lj lk
  have hcpc : cpcEffect ch (.cpcR ch hj hk) u (.reg .r0) (u.readReg hj) (u.readReg hk) := compareCarry_gives _ rfl
  obtain ⟨t, ht, -, -, ⟨htT, htC, htZ⟩, -⟩ := hcpc
  refine ⟨u, hu, t, ht, ?_⟩
  have hborrow : u.borrow = if (s.readReg lk).toNat ≤ (s.readReg lj).toNat then 0 else 1 := by
    simp [State.borrow, huC]
  have hequal : (u.z && isZero (u.borrowDiff (u.readReg hj) (u.readReg hk))) =
      decide (u.readReg hj ++ s.readReg lj = u.readReg hk ++ s.readReg lk) := by
    rw [huZ, isZero, ← Bool.decide_and]
    exact decide_eq_decide.mpr (equal_append hborrow)
  rw [hequal, decide_eq_decide.mpr (noBorrow_append hborrow),
    decide_eq_decide.mpr (signedAtLeast_append hborrow)] at htT
  rw [decide_eq_decide.mpr (noBorrow_append hborrow)] at htC
  rw [hequal] at htZ
  exact ⟨htT, htC, htZ⟩

end Sys2Proof

/-! Branches, links, `lp` and the moves through PC, from what the forms of the moves and of the additions say. -/

namespace Sys2Proof.Machine

/-- Register 7 reads as the address of the executing instruction (10_state.md R16). -/
@[simp] theorem State.readReg_pc (s : State) : s.readReg .pc = s.pc := BitVec.add_zero s.pc

/-! ## Branches -/

/-- A conditional instruction into PC jumps where T has its value and goes on where not. -/
theorem YieldsIfT.jumps {want : Bool} {v : Word → Word → Word} {i : Instr} {s : State} {a b : Word}
    (h : YieldsIfT want v i s (.reg .pc) a b) :
    ∃ t, exec i s = .next t ∧ t.pc = if s.t = want then v a b else s.pc + 1 := by
  obtain ⟨htaken, hskipped⟩ := h
  by_cases hT : s.t = want
  · obtain ⟨t, hnext, hpc, -⟩ := (htaken hT).jumps
    exact ⟨t, hnext, by rw [hpc, if_pos hT]⟩
  · obtain ⟨t, hnext, -, hpc, -⟩ := hskipped hT
    exact ⟨t, hnext, by rw [hpc, if_neg hT]⟩

theorem toNat_pc_add_one (s : State) : (s.pc + 1).toNat = (s.pc.toNat + 1) % 65536 := BitVec.toNat_add s.pc 1

theorem toNat_sub_word (p q : Word) : (p - q).toNat = (p.toNat + 65536 - q.toNat) % 65536 := by
  have hq := q.isLt
  rw [BitVec.toNat_sub]
  congr 1
  omega

/-! ## `lp` -/

/-- What is known of the next state may be added to what completing says of it. -/
theorem Completes.and_next {o : Answer} {s : State} {d : Dest} {v : Word} {flags more : State → Prop}
    (h : Completes o s d v flags) (hmore : ∀ t, o = .next t → more t) :
    Completes o s d v fun t => flags t ∧ more t := by
  obtain ⟨t, hnext, hwrote, hflags, hrest⟩ := h
  exact ⟨t, hnext, hwrote, ⟨hflags, hmore t hnext⟩, hrest⟩

theorem exec_lp_completes {s : State} {ri rk : Reg} {w : Word} (h : s.readProg (s.readReg rk) = .ok w) :
    Completes (exec (.lp ri rk) s) s (.reg ri) w s.sameFlags := by
  have hmeaning : exec (.lp ri rk) s = finish { s with cycles := s.cycles + 1 } (.reg ri) w := by
    change withVal (s.readProg (s.readReg rk)) _ = _
    rw [h, withVal_ok]
  rw [hmeaning]
  exact completes_finish ⟨s.t, s.c, s.z, s.freeCount, s.cycles + 1, rfl⟩ (fun _ h => nomatch h)
    fun _ ht hc hz => ⟨ht, hc, hz⟩

/-! ## Move and link -/

/-- `mvl` is the move from the state in which R6 holds the link (47_branch_link.md R218). -/
theorem moveLink_completes {f : Form} {s : State} {v : Word} (hsrc : f.src2 { s with r6 := s.nextPc } = .ok v)
    (hd : ∀ ea, f.dest { s with r6 := s.nextPc } = .mem ea → ea.toNat < s.dataWords) :
    Completes (moveLink f s) { s with r6 := s.nextPc } (f.dest { s with r6 := s.nextPc }) v s.sameFlags := by
  have hmeaning : moveLink f s = finish { s with r6 := s.nextPc } (f.dest { s with r6 := s.nextPc }) v := by
    rw [moveLink, hsrc, withVal_ok]
  rw [hmeaning]
  exact completes_move (s := { s with r6 := s.nextPc }) hd v

end Sys2Proof.Machine

namespace Sys2Proof

open Sys2Proof.Machine

/-- Settles O24: the branches are `add`, `sub` and their conditional forms into PC, whose first source is PC. -/
theorem relativeBranchTargets : Obligations.RelativeBranchTargets := by
  unfold Obligations.RelativeBranchTargets
  obtain ⟨⟨-, hbPlus, -⟩, -⟩ := addInEveryForm
  obtain ⟨-, hbMinus, -⟩ := subInEveryForm
  obtain ⟨⟨-, hbtPlus, -⟩, -, hbfPlus, -⟩ := conditionalAdd
  obtain ⟨⟨-, hbtMinus, -⟩, -, hbfMinus, -⟩ := conditionalSubtract
  intro s k
  refine ⟨?bPlus, ?bMinus, ?btPlus, ?bfPlus, ?btMinus, ?bfMinus⟩
  case bPlus =>
    obtain ⟨t, hnext, hpc, -⟩ := (hbPlus s k).jumps
    exact ⟨t, hnext, by rw [hpc, State.readReg_pc, BitVec.toNat_add]⟩
  case bMinus =>
    obtain ⟨t, hnext, hpc, -⟩ := (hbMinus s k).jumps
    exact ⟨t, hnext, by rw [hpc, State.readReg_pc, toNat_sub_word]⟩
  case btPlus =>
    obtain ⟨t, hnext, hpc⟩ := (hbtPlus s k).jumps
    refine ⟨t, hnext, ?_⟩
    rw [hpc, State.readReg_pc, apply_ite BitVec.toNat, BitVec.toNat_add, toNat_pc_add_one]
    cases s.t <;> rfl
  case bfPlus =>
    obtain ⟨t, hnext, hpc⟩ := (hbfPlus s k).jumps
    refine ⟨t, hnext, ?_⟩
    rw [hpc, State.readReg_pc, apply_ite BitVec.toNat, BitVec.toNat_add, toNat_pc_add_one]
    cases s.t <;> rfl
  case btMinus =>
    obtain ⟨t, hnext, hpc⟩ := (hbtMinus s k).jumps
    refine ⟨t, hnext, ?_⟩
    rw [hpc, State.readReg_pc, apply_ite BitVec.toNat, toNat_sub_word, toNat_pc_add_one]
    cases s.t <;> rfl
  case bfMinus =>
    obtain ⟨t, hnext, hpc⟩ := (hbfMinus s k).jumps
    refine ⟨t, hnext, ?_⟩
    rw [hpc, State.readReg_pc, apply_ite BitVec.toNat, toNat_sub_word, toNat_pc_add_one]
    cases s.t <;> rfl

/-- Settles O21: the flags are those of the move, the two cycles are what every `lp` counts. -/
theorem lpLoadsProgramWord : Obligations.LpLoadsProgramWord :=
  fun _ _ _ _ hread => (exec_lp_completes hread).and_next fun _ hnext => exec_cycles hnext

/-- Settles O25: the link is written in the state that the move starts from; it changes no direct address. -/
theorem moveAndLink : Obligations.MoveAndLink := by
  unfold Obligations.MoveAndLink
  refine fun s =>
    ⟨fun ri k => ?imm, fun k => ?jl, fun ri rk => ?reg, fun ri k m hread => ?load, fun ri k hinst => ?store⟩
  case imm => exact moveLink_completes (f := .imm ri k) rfl fun _ h => nomatch h
  case jl => exact moveLink_completes (f := .imm .pc k) rfl fun _ h => nomatch h
  case reg => exact moveLink_completes (f := .regs ri rk rk) rfl fun _ h => nomatch h
  case load => exact moveLink_completes (f := .load ri (.direct k)) hread fun _ h => nomatch h
  case store =>
    refine moveLink_completes (f := .store ri (.direct k)) rfl fun ea hdest => ?_
    cases hdest
    exact hinst

/-- Settles O33: a store completes with the word at its address, and a load reads data memory alone. -/
theorem storeThenLoad : Obligations.StoreThenLoad := by
  unfold Obligations.StoreThenLoad
  obtain ⟨-, -, -, -, hload, hstore⟩ := movInEveryForm
  intro s ri k hinst
  obtain ⟨t, ht, ⟨hword, -⟩, -⟩ := hstore k s ri 0 hinst (fun h => h.elim)
  refine ⟨t, ht, fun u rd l hdata hwords haddr hrd => ?_⟩
  have hread : u.readData (u.ea (.direct l)) = .ok (s.readReg ri) := by
    rw [haddr, ← hword, State.readData, State.readData, hdata, hwords]
  obtain ⟨v, hv, ⟨-, hreg, -⟩, -⟩ := hload l u rd _ fun _ => hread
  exact ⟨v, hv, hreg hrd⟩

/-- Settles O26: the return is the move of R6, where `jl` has left the link, into PC. -/
theorem callAndReturn : Obligations.CallAndReturn := by
  unfold Obligations.CallAndReturn
  intro s k
  obtain ⟨-, hjl, -⟩ := moveAndLink s
  obtain ⟨-, hmov, -⟩ := movInEveryForm
  obtain ⟨u, hu, ⟨hupc, -, hureg, -⟩, -⟩ := hjl k
  have hlink : u.r6 = s.pc + 1 := hureg .r6 (by decide) (by decide)
  refine ⟨u, hu, hupc rfl, fun v hv => ?_⟩
  obtain ⟨t, ht, htpc, -⟩ := (hmov v .pc .r6 .r6).jumps
  exact ⟨t, ht, htpc.trans (hv.trans hlink)⟩

/-- Settles O46: `mov` with PC as source reads `pc`, and with PC as destination writes it. -/
theorem pcAsOperand : Obligations.PcAsOperand := by
  unfold Obligations.PcAsOperand
  obtain ⟨-, hmov, -⟩ := movInEveryForm
  refine fun s => ⟨fun r hr => ?_, fun r _ => ?_⟩
  · obtain ⟨t, ht, ⟨-, hreg, -⟩, -⟩ := hmov s r .pc .pc
    have hdest : (Instr.movR r .pc).destReg ≠ some .pc := fun e => hr (Option.some.inj e)
    exact ⟨t, ht, (hreg hr).trans s.readReg_pc, exec_pc ht hdest⟩
  · obtain ⟨t, ht, hpc, -⟩ := (hmov s .pc r r).jumps
    exact ⟨t, ht, hpc⟩

end Sys2Proof

/-! The special instructions, the immediate and the addresses (48_nop_hlt.md, 40_cycle_and_prefix.md, 20_memory.md). -/

namespace Sys2Proof

open Sys2Proof.Machine

/-- Settles O27: both are `retire`, which clears PFR; `pfx` then sets it. -/
theorem nopAndPrefix : Obligations.NopAndPrefix := fun _ => ⟨rfl, fun _ => rfl, rfl⟩

/-- Settles O28: `hlt` is `retire` with the run state set. -/
theorem haltStopsTheClock : Obligations.HaltStopsTheClock := fun _ => rfl

/-- Settles O29: the immediate is the split value put together again, and PFR is the last `pfx` alone. -/
theorem prefixSuppliesUpperBits : Obligations.PrefixSuppliesUpperBits := by
  unfold Obligations.PrefixSuppliesUpperBits
  refine ⟨fun s v => ?_, fun s k l => ?_⟩
  · obtain ⟨t, ht, hpfr, -⟩ := exec_pfx_next s ((v >>> 5).setWidth 11)
    exact ⟨t, ht, State.imm16_of_split hpfr⟩
  · obtain ⟨u, hu, -⟩ := exec_pfx_next s k
    obtain ⟨t, ht, hpfr, -⟩ := exec_pfx_next u l
    exact ⟨u, hu, t, ht, hpfr⟩

/-- Settles O30: the immediate is `32 * PFR + K`, and `K` is below 32. -/
theorem immediateIsPrefixThenField : Obligations.ImmediateIsPrefixThenField := by
  unfold Obligations.ImmediateIsPrefixThenField
  intro s k
  have hk : k.toNat < 32 := k.isLt
  have hp : s.pfr.toNat < 2048 := s.pfr.isLt
  refine ⟨?upper, ?lower, fun hpfr => ?number⟩
  case upper =>
    apply BitVec.eq_of_toNat_eq
    rw [BitVec.extractLsb'_toNat, State.imm16_toNat, Nat.shiftRight_eq_div_pow]
    omega
  case lower =>
    apply BitVec.eq_of_toNat_eq
    rw [BitVec.extractLsb'_toNat, State.imm16_toNat, Nat.shiftRight_zero]
    omega
  case number =>
    rw [State.imm16_toNat, hpfr]
    exact Nat.zero_add _

/-- Settles O32: the base registers of A0, A1 and A2 are R4, R5 and R6. -/
theorem indexedAddressWraps : Obligations.IndexedAddressWraps := fun s k =>
  ⟨BitVec.toNat_add s.r4 (s.imm16 k), BitVec.toNat_add s.r5 (s.imm16 k), BitVec.toNat_add s.r6 (s.imm16 k)⟩

end Sys2Proof

/-! The host (92_eei_decisions.md D13) and the state after reset (10_state.md R28). -/

namespace Sys2Proof.Machine

section
variable {s : State} (a v : Word)

/-! ## What a poke does: one word at an installed address, nothing at another -/

theorem State.pokeData_installed (h : a.toNat < s.dataWords) :
    s.pokeData a v = { s with data := s.data.write a.toNat v } := if_pos h

theorem State.pokeData_uninstalled (h : s.dataWords ≤ a.toNat) : s.pokeData a v = s := if_neg (Nat.not_lt.mpr h)

theorem State.pokeProg_installed (h : a.toNat < s.progWords) :
    s.pokeProg a v = { s with prog := s.prog.write a.toNat v } := if_pos h

theorem State.pokeProg_uninstalled (h : s.progWords ≤ a.toNat) : s.pokeProg a v = s := if_neg (Nat.not_lt.mpr h)

variable (s) in
/-- A poke of a data word leaves every field but data memory alone. -/
theorem State.pokeData_rest : { s.pokeData a v with data := s.data } = s := by
  rcases Nat.lt_or_ge a.toNat s.dataWords with h | h
  · rw [State.pokeData_installed a v h]
  · rw [State.pokeData_uninstalled a v h]

variable (s) in
/-- A poke of a program word leaves every field but program memory alone. -/
theorem State.pokeProg_rest : { s.pokeProg a v with prog := s.prog } = s := by
  rcases Nat.lt_or_ge a.toNat s.progWords with h | h
  · rw [State.pokeProg_installed a v h]
  · rw [State.pokeProg_uninstalled a v h]

theorem readWord_write_same {sp : Space} {n : Nat} {m : Memory} (h : a.toNat < n) :
    readWord sp n (m.write a.toNat v) a = .ok v :=
  readWord_ok.mpr ⟨h, Memory.read_write_same ..⟩

theorem readWord_write_ne {sp : Space} {n : Nat} {m : Memory} {b : Word} (h : b ≠ a) :
    readWord sp n (m.write a.toNat v) b = readWord sp n m b := by
  have hn : b.toNat ≠ a.toNat := fun e => h (BitVec.eq_of_toNat_eq e)
  simp only [readWord, Memory.read_write_ne m hn]

theorem State.readData_pokeData_same (h : a.toNat < s.dataWords) : (s.pokeData a v).readData a = .ok v := by
  rw [State.pokeData_installed a v h]
  exact readWord_write_same a v h

theorem State.readData_pokeData_ne {b : Word} (hb : b ≠ a) : (s.pokeData a v).readData b = s.readData b := by
  rcases Nat.lt_or_ge a.toNat s.dataWords with h | h
  · rw [State.pokeData_installed a v h]
    exact readWord_write_ne a v hb
  · rw [State.pokeData_uninstalled a v h]

theorem State.readProg_pokeProg_same (h : a.toNat < s.progWords) : (s.pokeProg a v).readProg a = .ok v := by
  rw [State.pokeProg_installed a v h]
  exact readWord_write_same a v h

theorem State.readProg_pokeProg_ne {b : Word} (hb : b ≠ a) : (s.pokeProg a v).readProg b = s.readProg b := by
  rcases Nat.lt_or_ge a.toNat s.progWords with h | h
  · rw [State.pokeProg_installed a v h]
    exact readWord_write_ne a v hb
  · rw [State.pokeProg_uninstalled a v h]

variable (s) in
/-- A register write leaves every field but the registers and `pc` alone. -/
theorem State.writeReg_rest (r : Reg) :
    { s.writeReg r v with
      r0 := s.r0, r1 := s.r1, r2 := s.r2, r3 := s.r3, r4 := s.r4, r5 := s.r5, r6 := s.r6, pc := s.pc } = s := by
  cases r <;> rfl

end

/-! ## The acts of the host -/

section
variable {s : State}

/-- While the machine runs no act has an effect (D13, D20). -/
theorem hostAct_of_running (h : s.halted = false) (e : HostEvent) : hostAct e s = s := by
  cases e with
  | keyPressed => simp [hostAct, State.pressKey, h]
  | pokeProg a v => simp [hostAct, h]
  | pokeData a v => simp [hostAct, h]
  | pokeReg r v => simp [hostAct, h]

section
variable (h : s.halted = true)
include h

theorem hostAct_keyPressed_of_halted : hostAct .keyPressed s = { s with halted := false } := if_pos h

theorem hostAct_pokeProg_of_halted (a v : Word) : hostAct (.pokeProg a v) s = s.pokeProg a v := if_pos h

theorem hostAct_pokeData_of_halted (a v : Word) : hostAct (.pokeData a v) s = s.pokeData a v := if_pos h

theorem hostAct_pokeReg_of_halted (r : Reg) (v : Word) : hostAct (.pokeReg r v) s = s.writeReg r v := if_pos h

end

/-! ## The acts keep the invariant -/

theorem State.Inv.resumed (h : s.Inv) : ({ s with halted := false } : State).Inv := by
  obtain ⟨hsizes, hprog, hdata, -⟩ := h
  exact ⟨hsizes, hprog, hdata, fun e => by cases e⟩

theorem State.Inv.pokeProg (h : s.Inv) (a v : Word) : (s.pokeProg a v).Inv := by
  rcases Nat.lt_or_ge a.toNat s.progWords with ha | ha
  · obtain ⟨hsizes, hprog, hdata, hpfr⟩ := h
    rw [State.pokeProg_installed a v ha]
    exact ⟨hsizes, Memory.wf_write hprog ha v, hdata, hpfr⟩
  · rwa [State.pokeProg_uninstalled a v ha]

theorem State.Inv.pokeData (h : s.Inv) (a v : Word) : (s.pokeData a v).Inv := by
  rcases Nat.lt_or_ge a.toNat s.dataWords with ha | ha
  · obtain ⟨hsizes, hprog, hdata, hpfr⟩ := h
    rw [State.pokeData_installed a v ha]
    exact ⟨hsizes, hprog, Memory.wf_write hdata ha v, hpfr⟩
  · rwa [State.pokeData_uninstalled a v ha]

theorem State.Inv.writeReg (h : s.Inv) (r : Reg) (v : Word) : (s.writeReg r v).Inv := by
  simpa only [State.Inv, State.writeReg_progWords, State.writeReg_dataWords, State.writeReg_prog, State.writeReg_data,
    State.writeReg_halted, State.writeReg_pfr] using h

theorem State.Inv.hostAct (h : s.Inv) (e : HostEvent) : (hostAct e s).Inv := by
  cases hhalt : s.halted with
  | false => rwa [hostAct_of_running hhalt]
  | true =>
    cases e with
    | keyPressed => exact hostAct_keyPressed_of_halted hhalt ▸ h.resumed
    | pokeProg a v => exact hostAct_pokeProg_of_halted hhalt a v ▸ h.pokeProg a v
    | pokeData a v => exact hostAct_pokeData_of_halted hhalt a v ▸ h.pokeData a v
    | pokeReg r v => exact hostAct_pokeReg_of_halted hhalt r v ▸ h.writeReg r v

end

/-! ## Reset -/

theorem State.inv_resetOf {p : Config.Params} (h : Config.legalSizes p.progWords p.dataWords) :
    (State.resetOf p).Inv :=
  ⟨h, Memory.wf_nil _, Memory.wf_nil _, fun e => by cases e⟩

/-- No word of an empty memory has a value (10_state.md R28). -/
theorem readWord_nil_ne_ok (sp : Space) (n : Nat) (a v : Word) : readWord sp n [] a ≠ .ok v := by
  intro h
  obtain ⟨-, hread⟩ := readWord_ok.mp h
  cases hread

end Sys2Proof.Machine

namespace Sys2Proof

open Sys2Proof.Machine

/-- Settles O55. -/
theorem hostActKeepsInvariant : Obligations.HostActKeepsInvariant := fun e _ hinv => hinv.hostAct e

/-- Settles O51: each act of the host on a halted machine is one named operation, on a running one it is nothing. -/
theorem hostActsOnTheHaltedMachine : Obligations.HostActsOnTheHaltedMachine := by
  unfold Obligations.HostActsOnTheHaltedMachine
  refine ⟨fun s t hrun hhlt => ?key, fun s hhalt => ⟨fun a v => ?data, fun a v => ?prog, fun r v => ?reg⟩,
    fun s e hrun => hostAct_of_running hrun e⟩
  case key =>
    rw [haltStopsTheClock s] at hhlt
    cases hhlt
    rw [hostAct_keyPressed_of_halted rfl, ← hrun]
  case data =>
    rw [hostAct_pokeData_of_halted hhalt]
    exact ⟨State.readData_pokeData_same a v, State.pokeData_uninstalled a v,
      fun b hb => State.readData_pokeData_ne a v hb, s.pokeData_rest a v⟩
  case prog =>
    rw [hostAct_pokeProg_of_halted hhalt]
    exact ⟨State.readProg_pokeProg_same a v, State.pokeProg_uninstalled a v,
      fun b hb => State.readProg_pokeProg_ne a v hb, s.pokeProg_rest a v⟩
  case reg =>
    rw [hostAct_pokeReg_of_halted hhalt]
    exact ⟨fun hr => by rw [State.writeReg_pc, if_pos hr], fun hr => State.readReg_writeReg_same s hr v,
      fun q hq => State.readReg_writeReg_ne s hq v, s.writeReg_rest v r⟩

/-- Settles O52: the default sizes are legal too. -/
theorem resetMeetsInvariant : Obligations.ResetMeetsInvariant :=
  ⟨State.inv_resetOf (p := Config.defaults) (by decide), fun _ hsizes => State.inv_resetOf hsizes⟩

/-- Settles O53: the fields are those that `resetOf` writes, and both memories are empty. -/
theorem resetValues : Obligations.ResetValues := by
  unfold Obligations.ResetValues
  refine ⟨fun p => ⟨rfl, rfl, rfl, rfl, rfl, fun r hr => ?_, ⟨rfl, rfl, rfl⟩, fun a v => ?_⟩, rfl⟩
  · cases r
    case pc => exact absurd rfl hr
    all_goals rfl
  · exact ⟨readWord_nil_ne_ok .data p.dataWords a v, readWord_nil_ne_ok .prog p.progWords a v⟩

end Sys2Proof

/-! The 117 rows of the opcode table are a few meanings over an operand form (`Instr.meaning`): `exec` runs the meaning
of an instruction (`exec_eq_run`), so that a statement about every instruction has one case per meaning. -/

namespace Sys2Proof.Machine

/-- The arithmetic and bitwise mnemonics (41_arithmetic.md, 42_bitwise.md). -/
inductive AluOp where
  | add | dad | adc | dac | sub | rsb | sbc | dsc | and | or | xor

/-- The moves of 45_move.md that choose their source by T at most. -/
inductive MoveOp where
  | mov | set | sef | sel

/-- The conditional additions and subtractions (46_conditional_arithmetic.md). -/
inductive CondOp where
  | adt | adf | sbt | sbf

/-- A form that names no base register; `mvl`, which writes R6 = A2 before it reads memory, has no other
(47_branch_link.md R218). -/
def Form.noBase : Form → Bool
  | .load _ (.indexed _ _) | .store _ (.indexed _ _) => false
  | _ => true

/-- What an instruction means: a shared meaning over the operand form of its row. -/
inductive Meaning where
  | nop
  | pfx (k : Imm11)
  | hlt
  | lp (ri rk : Reg)
  | alu (op : AluOp) (f : Form)
  | move (op : MoveOp) (f : Form)
  | link (f : Form) (direct : f.noBase = true)
  | cond (op : CondOp) (f : Form)
  | cmp (withCarry : Bool) (cc : CC) (f : Form)
  | shift (funnel : Word → Word → Shifted) (ri rj rk : Reg)

/-! ## Running a meaning -/

/-- The mnemonics that take the carry in and combine Z (41_arithmetic.md R120). -/
def AluOp.readsCarry : AluOp → Bool
  | .adc | .dac | .sbc | .dsc => true
  | _ => false

/-- Result and carry of a binary subtraction. -/
def subResult (p q : Word) (cin : Bool) : Word × Bool := ((sub16 p q cin).r, (sub16 p q cin).cout)

/-- Result and carry of a mnemonic on its sources, the carry in being `cin`. -/
def AluOp.result (op : AluOp) (f : Form) (cin : Bool) (a b : Word) : Word × Bool :=
  match op with
  | .add => ((add16 a b false).r, (add16 a b false).cout)
  | .dad => bcdOp .dad a b false
  | .adc => ((add16 a b cin).r, (add16 a b cin).cout)
  | .dac => bcdOp .dac a b cin
  | .sub => subResult (f.subOrder a b).1 (f.subOrder a b).2 true
  | .rsb => subResult (f.subOrder a b).2 (f.subOrder a b).1 true
  | .sbc => subResult (f.subOrder a b).1 (f.subOrder a b).2 cin
  | .dsc => bcdOp .dsc (f.subOrder a b).1 (f.subOrder a b).2 cin
  | .and => (a &&& b, false)
  | .or => (a ||| b, false)
  | .xor => (a ^^^ b, false)

/-- The flags after a result. -/
def AluOp.setFlags (op : AluOp) (s : State) (x : Word × Bool) : State :=
  if op.readsCarry then s.setCarryIn x.1 x.2 else s.setArith x.1 x.2

def AluOp.run (op : AluOp) (f : Form) (s : State) : Answer :=
  f.withSources s fun a b =>
    finish (op.setFlags s (op.result f s.c a b)) (f.dest s) (op.result f s.c a b).1

/-- What a move writes: one of the sources, or 0. -/
inductive Choice where
  | src1 | src2 | zero

/-- What each move chooses where T is `t` (45_move.md R180 to R184). -/
def MoveOp.choice (op : MoveOp) (t : Bool) : Choice :=
  match op, t with
  | .mov, _ | .set, true | .sef, false | .sel, true => .src2
  | .sel, false => .src1
  | .set, false | .sef, true => .zero

def Form.chosen (f : Form) (s : State) (c : Choice) : Except Fault Word :=
  match c with
  | .src1 => f.src1 s
  | .src2 => f.src2 s
  | .zero => .ok 0

def MoveOp.run (op : MoveOp) (f : Form) (s : State) : Answer :=
  withVal (f.chosen s (op.choice s.t)) fun v => finish s (f.dest s) v

/-- The value of T in which the mnemonic acts. -/
def CondOp.want : CondOp → Bool
  | .adt | .sbt => true
  | .adf | .sbf => false

def CondOp.result (op : CondOp) (f : Form) (a b : Word) : Word :=
  match op with
  | .adt | .adf => (add16 a b false).r
  | .sbt | .sbf => (sub16 (f.subOrder a b).1 (f.subOrder a b).2 true).r

def CondOp.run (op : CondOp) (f : Form) (s : State) : Answer :=
  if s.t = op.want then f.withSources s fun a b => finish s (f.dest s) (op.result f a b) else finishNone s

def Meaning.run (m : Meaning) (s : State) : Answer :=
  match m with
  | .nop => execNop s
  | .pfx k => execPfx k s
  | .hlt => execHlt s
  | .lp ri rk => execLp ri rk s
  | .alu op f => op.run f s
  | .move op f => op.run f s
  | .link f _ => moveLink f s
  | .cond op f => op.run f s
  | .cmp false cc f => f.withSub s fun p q => compare cc p q s
  | .cmp true cc f => f.withSub s fun p q => compareCarry cc p q s
  | .shift funnel ri rj rk => finishShift s ri (funnel (s.readReg rj) (s.readReg rk))

end Sys2Proof.Machine

/-! ## The meaning of an instruction -/

namespace Sys2Proof

open Machine

/-- The row of the opcode table an instruction stands in (30_encoding.md R73), as a meaning over its form. -/
def Instr.meaning : Instr → Machine.Meaning
  | .nop => .nop
  | .pfx k => .pfx k
  | .hlt => .hlt
  | .lp ri rk => .lp ri rk
  | .cmpML ri an k => .cmp false .eq (.load ri (.indexed an k))
  | .movML ri an k => .move .mov (.load ri (.indexed an k))
  | .movMS ri an k => .move .mov (.store ri (.indexed an k))
  | .addML ri an k => .alu .add (.load ri (.indexed an k))
  | .addMS ri an k => .alu .add (.store ri (.indexed an k))
  | .subML ri an k => .alu .sub (.load ri (.indexed an k))
  | .subMS ri an k => .alu .sub (.store ri (.indexed an k))
  | .andML ri an k => .alu .and (.load ri (.indexed an k))
  | .andMS ri an k => .alu .and (.store ri (.indexed an k))
  | .adtML ri an k => .cond .adt (.load ri (.indexed an k))
  | .adtMS ri an k => .cond .adt (.store ri (.indexed an k))
  | .cmpZL ri k => .cmp false .eq (.load ri (.direct k))
  | .cpcZL ri k => .cmp true .eq (.load ri (.direct k))
  | .movZL ri k => .move .mov (.load ri (.direct k))
  | .movZS ri k => .move .mov (.store ri (.direct k))
  | .setZL ri k => .move .set (.load ri (.direct k))
  | .setZS ri k => .move .set (.store ri (.direct k))
  | .sefZL ri k => .move .sef (.load ri (.direct k))
  | .sefZS ri k => .move .sef (.store ri (.direct k))
  | .selZL ri k => .move .sel (.load ri (.direct k))
  | .selZS ri k => .move .sel (.store ri (.direct k))
  | .addZL ri k => .alu .add (.load ri (.direct k))
  | .addZS ri k => .alu .add (.store ri (.direct k))
  | .dadZL ri k => .alu .dad (.load ri (.direct k))
  | .dadZS ri k => .alu .dad (.store ri (.direct k))
  | .adcZL ri k => .alu .adc (.load ri (.direct k))
  | .adcZS ri k => .alu .adc (.store ri (.direct k))
  | .dacZL ri k => .alu .dac (.load ri (.direct k))
  | .dacZS ri k => .alu .dac (.store ri (.direct k))
  | .subZL ri k => .alu .sub (.load ri (.direct k))
  | .subZS ri k => .alu .sub (.store ri (.direct k))
  | .rsbZL ri k => .alu .rsb (.load ri (.direct k))
  | .rsbZS ri k => .alu .rsb (.store ri (.direct k))
  | .sbcZL ri k => .alu .sbc (.load ri (.direct k))
  | .sbcZS ri k => .alu .sbc (.store ri (.direct k))
  | .dscZL ri k => .alu .dsc (.load ri (.direct k))
  | .dscZS ri k => .alu .dsc (.store ri (.direct k))
  | .andZL ri k => .alu .and (.load ri (.direct k))
  | .andZS ri k => .alu .and (.store ri (.direct k))
  | .orZL ri k => .alu .or (.load ri (.direct k))
  | .orZS ri k => .alu .or (.store ri (.direct k))
  | .xorZL ri k => .alu .xor (.load ri (.direct k))
  | .xorZS ri k => .alu .xor (.store ri (.direct k))
  | .mvlZL ri k => .link (.load ri (.direct k)) rfl
  | .mvlZS ri k => .link (.store ri (.direct k)) rfl
  | .adtZL ri k => .cond .adt (.load ri (.direct k))
  | .adtZS ri k => .cond .adt (.store ri (.direct k))
  | .adfZL ri k => .cond .adf (.load ri (.direct k))
  | .adfZS ri k => .cond .adf (.store ri (.direct k))
  | .sbtZL ri k => .cond .sbt (.load ri (.direct k))
  | .sbtZS ri k => .cond .sbt (.store ri (.direct k))
  | .sbfZL ri k => .cond .sbf (.load ri (.direct k))
  | .sbfZS ri k => .cond .sbf (.store ri (.direct k))
  | .sr1R ri rj => .shift (fun a _ => funnelRight 1 a 0) ri rj rj
  | .rr1R ri rj rk => .shift (funnelRight 1) ri rj rk
  | .sr4R ri rj => .shift (fun a _ => funnelRight 4 a 0) ri rj rj
  | .rr4R ri rj rk => .shift (funnelRight 4) ri rj rk
  | .sl1R ri rj => .shift (fun a _ => funnelLeft 1 a 0) ri rj rj
  | .rl1R ri rj rk => .shift (funnelLeft 1) ri rj rk
  | .sl4R ri rj => .shift (fun a _ => funnelLeft 4 a 0) ri rj rj
  | .rl4R ri rj rk => .shift (funnelLeft 4) ri rj rk
  | .cmpR cc rj rk => .cmp false cc (.regs .r0 rj rk)
  | .cpcR cc rj rk => .cmp true cc (.regs .r0 rj rk)
  | .movR ri rk => .move .mov (.regs ri rk rk)
  | .setR ri rk => .move .set (.regs ri rk rk)
  | .sefR ri rk => .move .sef (.regs ri rk rk)
  | .selR ri rj rk => .move .sel (.regs ri rj rk)
  | .addR ri rj rk => .alu .add (.regs ri rj rk)
  | .dadR ri rj rk => .alu .dad (.regs ri rj rk)
  | .adcR ri rj rk => .alu .adc (.regs ri rj rk)
  | .dacR ri rj rk => .alu .dac (.regs ri rj rk)
  | .subR ri rj rk => .alu .sub (.regs ri rj rk)
  | .rsbR ri rj rk => .alu .rsb (.regs ri rj rk)
  | .sbcR ri rj rk => .alu .sbc (.regs ri rj rk)
  | .dscR ri rj rk => .alu .dsc (.regs ri rj rk)
  | .andR ri rj rk => .alu .and (.regs ri rj rk)
  | .orR ri rj rk => .alu .or (.regs ri rj rk)
  | .xorR ri rj rk => .alu .xor (.regs ri rj rk)
  | .mvlR ri rk => .link (.regs ri rk rk) rfl
  | .adtR ri rj rk => .cond .adt (.regs ri rj rk)
  | .adfR ri rj rk => .cond .adf (.regs ri rj rk)
  | .sbtR ri rj rk => .cond .sbt (.regs ri rj rk)
  | .sbfR ri rj rk => .cond .sbf (.regs ri rj rk)
  | .cmpI ri k => .cmp false .eq (.imm ri k)
  | .cpcI ri k => .cmp true .eq (.imm ri k)
  | .movI ri k => .move .mov (.imm ri k)
  | .j k => .move .mov (.imm .pc k)
  | .setI ri k => .move .set (.imm ri k)
  | .sefI ri k => .move .sef (.imm ri k)
  | .selI ri k => .move .sel (.imm ri k)
  | .addI ri k => .alu .add (.imm ri k)
  | .bPlus k => .alu .add (.imm .pc k)
  | .dadI ri k => .alu .dad (.imm ri k)
  | .adcI ri k => .alu .adc (.imm ri k)
  | .dacI ri k => .alu .dac (.imm ri k)
  | .subI ri k => .alu .sub (.imm ri k)
  | .bMinus k => .alu .sub (.imm .pc k)
  | .rsbI ri k => .alu .rsb (.imm ri k)
  | .sbcI ri k => .alu .sbc (.imm ri k)
  | .dscI ri k => .alu .dsc (.imm ri k)
  | .andI ri k => .alu .and (.imm ri k)
  | .orI ri k => .alu .or (.imm ri k)
  | .xorI ri k => .alu .xor (.imm ri k)
  | .mvlI ri k => .link (.imm ri k) rfl
  | .jl k => .link (.imm .pc k) rfl
  | .adtI ri k => .cond .adt (.imm ri k)
  | .btPlus k => .cond .adt (.imm .pc k)
  | .adfI ri k => .cond .adf (.imm ri k)
  | .bfPlus k => .cond .adf (.imm .pc k)
  | .sbtI ri k => .cond .sbt (.imm ri k)
  | .btMinus k => .cond .sbt (.imm .pc k)
  | .sbfI ri k => .cond .sbf (.imm ri k)
  | .bfMinus k => .cond .sbf (.imm .pc k)

end Sys2Proof

namespace Sys2Proof.Machine

theorem moveSet_eq_run (f : Form) (s : State) : moveSet f s = MoveOp.set.run f s := by
  unfold moveSet MoveOp.run
  cases s.t <;> rfl

theorem moveSef_eq_run (f : Form) (s : State) : moveSef f s = MoveOp.sef.run f s := by
  unfold moveSef MoveOp.run
  cases s.t <;> rfl

theorem moveSel_eq_run (f : Form) (s : State) : moveSel f s = MoveOp.sel.run f s := by
  unfold moveSel MoveOp.run
  cases s.t <;> rfl

theorem condAdt_eq_run (f : Form) (s : State) : condAdt f s = CondOp.adt.run f s := rfl

theorem condAdf_eq_run (f : Form) (s : State) : condAdf f s = CondOp.adf.run f s := by
  unfold condAdf CondOp.run
  cases s.t <;> rfl

theorem condSbt_eq_run (f : Form) (s : State) : condSbt f s = CondOp.sbt.run f s := rfl

theorem condSbf_eq_run (f : Form) (s : State) : condSbf f s = CondOp.sbf.run f s := by
  unfold condSbf CondOp.run
  cases s.t <;> rfl

/-- `exec` runs the meaning. -/
theorem exec_eq_run (i : Instr) (s : State) : exec i s = i.meaning.run s := by
  cases i with
  | adtML ri an k | adtMS ri an k | adtZL ri k | adtZS ri k | adtR ri rj rk | adtI ri k | btPlus k =>
    exact condAdt_eq_run ..
  | setZL ri k | setZS ri k | setR ri rk | setI ri k =>
    exact moveSet_eq_run ..
  | sefZL ri k | sefZS ri k | sefR ri rk | sefI ri k =>
    exact moveSef_eq_run ..
  | selZL ri k | selZS ri k | selR ri rj rk | selI ri k =>
    exact moveSel_eq_run ..
  | adfZL ri k | adfZS ri k | adfR ri rj rk | adfI ri k | bfPlus k =>
    exact condAdf_eq_run ..
  | sbtZL ri k | sbtZS ri k | sbtR ri rj rk | sbtI ri k | btMinus k =>
    exact condSbt_eq_run ..
  | sbfZL ri k | sbfZS ri k | sbfR ri rj rk | sbfI ri k | bfMinus k =>
    exact condSbf_eq_run ..
  | _ => rfl

end Sys2Proof.Machine

/-! Which memory words an instruction accesses, by its meaning: where one of them has no value or no cell the
instruction stops with that fault, and otherwise it completes (60_exceptions.md R240, R241). -/

namespace Sys2Proof.Machine

/-! ## What a meaning accesses -/

/-- The data address of a form (40_cycle_and_prefix.md R100). -/
def Form.addr : Form → Option Addr
  | .load _ a | .store _ a => some a
  | _ => none

/-- The data address of the source that a move chooses. -/
def Form.chosenAddr (f : Form) (c : Choice) : Option Addr :=
  match c, f with
  | .src1, .store _ a | .src2, .load _ a => some a
  | _, _ => none

/-- The data address a meaning reads where T is `t` (20_memory.md R49). -/
def Meaning.dataRead (m : Meaning) (t : Bool) : Option Addr :=
  match m with
  | .alu _ f | .cmp _ _ f => f.addr
  | .cond op f => if t = op.want then f.addr else none
  | .move op f => f.chosenAddr (op.choice t)
  | .link f _ => f.chosenAddr .src2
  | _ => none

/-- The data address a meaning writes where T is `t` (20_memory.md R49). -/
def Meaning.dataWrite (m : Meaning) (t : Bool) : Option Addr :=
  match m with
  | .alu _ f | .move _ f | .link f _ => f.toAddr
  | .cond op f => if t = op.want then f.toAddr else none
  | _ => none

/-! For each row, and either value of T, the names of an instruction and of its meaning are the same term. -/

theorem dataRead_eq_meaning (i : Instr) (t : Bool) : i.dataRead t = i.meaning.dataRead t := by
  cases t <;> cases i <;> rfl

theorem dataWrite_eq_meaning (i : Instr) (t : Bool) : i.dataWrite t = i.meaning.dataWrite t := by
  cases t <;> cases i <;> rfl

/-! ## Reading the sources -/

section
variable {f : Form} {s : State} {a : Addr} {e : Fault}

/-- A form whose data word cannot be read stops with that fault. -/
theorem Form.withSources_of_read_error (ha : f.addr = some a) (he : s.readData (s.ea a) = .error e)
    (k : Word → Word → Answer) : f.withSources s k = .fault e := by
  cases f with
  | imm => cases ha
  | regs => cases ha
  | load ri x =>
    cases ha
    simp [Form.withSources, Form.src1, Form.src2, he, withVal]
  | store ri x =>
    cases ha
    simp [Form.withSources, Form.src1, he, withVal]

/-- A form whose data word, if it has one, can be read has both sources. -/
theorem Form.sources_of_read_ok (h : ∀ a, f.addr = some a → ∃ v, s.readData (s.ea a) = .ok v) :
    (∃ v, f.src1 s = .ok v) ∧ ∃ v, f.src2 s = .ok v := by
  cases f with
  | imm ri k => exact ⟨⟨_, rfl⟩, ⟨_, rfl⟩⟩
  | regs ri rj rk => exact ⟨⟨_, rfl⟩, ⟨_, rfl⟩⟩
  | load ri x => exact ⟨⟨_, rfl⟩, h x rfl⟩
  | store ri x => exact ⟨h x rfl, ⟨_, rfl⟩⟩

theorem Form.withSources_completes (h : ∀ a, f.addr = some a → ∃ v, s.readData (s.ea a) = .ok v)
    {k : Word → Word → Answer} (hk : ∀ a b, ∃ t, k a b = .next t) : ∃ t, f.withSources s k = .next t := by
  obtain ⟨⟨v1, h1⟩, ⟨v2, h2⟩⟩ := Form.sources_of_read_ok h
  obtain ⟨t, ht⟩ := hk v1 v2
  exact ⟨t, Form.withSources_next.mpr ⟨v1, v2, h1, h2, ht⟩⟩

/-- A stored address is the address of the form. -/
theorem Form.addr_of_toAddr (h : f.toAddr = some a) : f.addr = some a := by
  cases f with
  | store ri x => exact h
  | _ => cases h

/-- A destination in memory is the stored address. -/
theorem Form.toAddr_of_dest {ea : Word} (h : f.dest s = .mem ea) : ∃ a, f.toAddr = some a ∧ ea = s.ea a := by
  cases f with
  | store ri x => cases h; exact ⟨x, rfl, rfl⟩
  | _ => cases h

/-- A chosen source whose data word cannot be read stops with that fault. -/
theorem Form.chosen_of_read_error {c : Choice} (ha : f.chosenAddr c = some a) (he : s.readData (s.ea a) = .error e) :
    f.chosen s c = .error e := by
  cases c with
  | zero => cases ha
  | src1 =>
    cases f with
    | store ri x => cases ha; exact he
    | _ => cases ha
  | src2 =>
    cases f with
    | load ri x => cases ha; exact he
    | _ => cases ha

/-- A chosen source that is no data word, or one that can be read, has a value. -/
theorem Form.chosen_of_read_ok {c : Choice} (h : ∀ a, f.chosenAddr c = some a → ∃ v, s.readData (s.ea a) = .ok v) :
    ∃ v, f.chosen s c = .ok v := by
  cases c with
  | zero => exact ⟨0, rfl⟩
  | src1 =>
    cases f with
    | store ri x => exact h x rfl
    | _ => exact ⟨_, rfl⟩
  | src2 =>
    cases f with
    | load ri x => exact h x rfl
    | _ => exact ⟨_, rfl⟩

/-- Writing the destination of a form completes where a stored address is installed; `s'` stands for `s` with other
flags. -/
theorem finish_completes {s' : State} (hwords : s'.dataWords = s.dataWords)
    (h : ∀ a, f.toAddr = some a → (s.ea a).toNat < s.dataWords) (v : Word) : ∃ t, finish s' (f.dest s) v = .next t := by
  cases hdest : f.dest s with
  | reg r => exact ⟨_, finish_reg s' r v⟩
  | mem ea =>
    obtain ⟨a, ha, rfl⟩ := Form.toAddr_of_dest hdest
    exact ⟨_, finish_mem.mpr ⟨hwords ▸ h a ha, rfl⟩⟩

/-- The link does not move the address of a form without a base register (47_branch_link.md R218). -/
theorem Form.dest_linked (hf : f.noBase = true) (l : Word) : f.dest { s with r6 := l } = f.dest s := by
  cases f with
  | store ri x =>
    cases x with
    | direct k => rfl
    | indexed an k => cases hf
  | _ => rfl

theorem State.ea_linked (hf : f.noBase = true) (ha : f.addr = some a) (l : Word) :
    ({ s with r6 := l } : State).ea a = s.ea a := by
  cases a with
  | direct k => rfl
  | indexed an k =>
    cases f with
    | load => cases ha; cases hf
    | store => cases ha; cases hf
    | _ => cases ha

theorem Form.addr_of_chosenAddr {c : Choice} (h : f.chosenAddr c = some a) : f.addr = some a := by
  cases c with
  | zero => cases h
  | src1 =>
    cases f with
    | store ri x => exact h
    | _ => cases h
  | src2 =>
    cases f with
    | load ri x => exact h
    | _ => cases h

/-- A data word read after the link is the word that the form names before it. -/
theorem State.readData_linked (hf : f.noBase = true) (ha : f.addr = some a) (l : Word) :
    ({ s with r6 := l } : State).readData (({ s with r6 := l } : State).ea a) = s.readData (s.ea a) := by
  rw [State.ea_linked hf ha]
  rfl

end

theorem AluOp.setFlags_dataWords (op : AluOp) (s : State) (x : Word × Bool) :
    (op.setFlags s x).dataWords = s.dataWords := by
  unfold AluOp.setFlags
  split <;> rfl

/-- `mvl` in one equation: choose S2 and finish, in the linked state. -/
theorem moveLink_eq (f : Form) (s : State) :
    moveLink f s = withVal (f.chosen { s with r6 := s.nextPc } .src2) fun v =>
      finish { s with r6 := s.nextPc } (f.dest { s with r6 := s.nextPc }) v := rfl

/-- A move into memory stops at an address that is not installed, whether it reads the word there or not. -/
theorem Form.move_uninstalled {f : Form} {s : State} {a : Addr} (ha : f.toAddr = some a)
    (h : s.dataWords ≤ (s.ea a).toNat) (c : Choice) :
    (withVal (f.chosen s c) fun v => finish s (f.dest s) v) = .fault (.outOfRange .data (s.ea a)) := by
  cases f with
  | store ri x =>
    cases ha
    cases c with
    | src1 => exact withVal_fault.mpr (.inl (readWord_uninstalled h))
    | src2 => exact finish_uninstalled h
    | zero => exact finish_uninstalled h
  | _ => cases ha

/-! ## The three ends of an instruction -/

section
variable {m : Meaning} {s : State} {a : Addr}

/-- A data word that the meaning reads and that cannot be read is the fault of the instruction. -/
theorem Meaning.run_of_read_error {e : Fault} (ha : m.dataRead s.t = some a) (he : s.readData (s.ea a) = .error e) :
    m.run s = .fault e := by
  cases m with
  | nop | pfx k | hlt | lp ri rk | shift g ri rj rk => cases ha
  | alu op f => exact Form.withSources_of_read_error ha he _
  | cmp withCarry cc f => cases withCarry <;> exact Form.withSources_of_read_error ha he _
  | move op f =>
    have hsrc : f.chosen s (op.choice s.t) = .error e := Form.chosen_of_read_error ha he
    exact withVal_fault.mpr (.inl hsrc)
  | link f hf =>
    have he' := (State.readData_linked hf (Form.addr_of_chosenAddr ha) s.nextPc).trans he
    exact withVal_fault.mpr (.inl (Form.chosen_of_read_error ha he'))
  | cond op f =>
    by_cases hT : s.t = op.want
    · have hrun : (Meaning.cond op f).run s = f.withSources s _ := if_pos hT
      rw [Meaning.dataRead, if_pos hT] at ha
      rw [hrun]
      exact Form.withSources_of_read_error ha he _
    · rw [Meaning.dataRead, if_neg hT] at ha
      cases ha

/-- So is a data word that the meaning writes and that is not installed. -/
theorem Meaning.run_of_write_uninstalled (ha : m.dataWrite s.t = some a) (h : s.dataWords ≤ (s.ea a).toNat) :
    m.run s = .fault (.outOfRange .data (s.ea a)) := by
  have he : s.readData (s.ea a) = .error (.outOfRange .data (s.ea a)) := readWord_uninstalled h
  cases m with
  | nop | pfx k | hlt | lp ri rk | shift g ri rj rk | cmp withCarry cc f => cases ha
  | alu op f => exact Form.withSources_of_read_error (Form.addr_of_toAddr ha) he _
  | cond op f =>
    by_cases hT : s.t = op.want
    · have hrun : (Meaning.cond op f).run s = f.withSources s _ := if_pos hT
      rw [Meaning.dataWrite, if_pos hT] at ha
      rw [hrun]
      exact Form.withSources_of_read_error (Form.addr_of_toAddr ha) he _
    · rw [Meaning.dataWrite, if_neg hT] at ha
      cases ha
  | move op f => exact Form.move_uninstalled ha h _
  | link f hf =>
    have hea : ({ s with r6 := s.nextPc } : State).ea a = s.ea a := State.ea_linked hf (Form.addr_of_toAddr ha) _
    rw [Meaning.run, moveLink_eq, ← hea]
    exact Form.move_uninstalled ha (hea.symm ▸ h) .src2

theorem finishNone_completes (s : State) : ∃ t, finishNone s = .next t := ⟨_, rfl⟩

/-- Where the data word it reads has been written and the one it writes is installed, and the program word of `lp` has
been written, a meaning completes. -/
theorem Meaning.run_completes (hread : ∀ a, m.dataRead s.t = some a → ∃ v, s.readData (s.ea a) = .ok v)
    (hwrite : ∀ a, m.dataWrite s.t = some a → (s.ea a).toNat < s.dataWords)
    (hlp : ∀ ri rk, m = .lp ri rk → ∃ v, s.readProg (s.readReg rk) = .ok v) : ∃ t, m.run s = .next t := by
  cases m with
  | nop => exact ⟨_, rfl⟩
  | pfx k => exact ⟨_, rfl⟩
  | hlt => exact ⟨_, rfl⟩
  | shift g ri rj rk => exact ⟨_, rfl⟩
  | lp ri rk =>
    obtain ⟨v, hv⟩ := hlp ri rk rfl
    exact ⟨_, withVal_next.mpr ⟨v, hv, rfl⟩⟩
  | alu op f =>
    exact Form.withSources_completes hread fun a b => finish_completes (op.setFlags_dataWords s _) hwrite _
  | cmp withCarry cc f =>
    cases withCarry <;> exact Form.withSources_completes hread fun a b => finishNone_completes _
  | cond op f =>
    by_cases hT : s.t = op.want
    · have hrun : (Meaning.cond op f).run s = f.withSources s _ := if_pos hT
      simp only [Meaning.dataRead, Meaning.dataWrite, if_pos hT] at hread hwrite
      rw [hrun]
      exact Form.withSources_completes hread fun a b => finish_completes rfl hwrite _
    · exact ⟨_, if_neg hT⟩
  | move op f =>
    obtain ⟨v, hv⟩ := Form.chosen_of_read_ok hread
    obtain ⟨t, ht⟩ := finish_completes (s' := s) rfl hwrite v
    exact ⟨t, withVal_next.mpr ⟨v, hv, ht⟩⟩
  | link f hf =>
    obtain ⟨v, hv⟩ := Form.chosen_of_read_ok (f := f) (c := .src2) (s := { s with r6 := s.nextPc }) fun a ha => by
      rw [State.readData_linked hf (Form.addr_of_chosenAddr ha)]
      exact hread a ha
    obtain ⟨t, ht⟩ := finish_completes (f := f) (s := s) (s' := { s with r6 := s.nextPc }) rfl hwrite v
    rw [← Form.dest_linked hf s.nextPc] at ht
    exact ⟨t, withVal_next.mpr ⟨v, hv, ht⟩⟩

end

/-! ## The same of `exec` -/

theorem meaning_eq_lp {i : Instr} {ri rk : Reg} (h : i.meaning = .lp ri rk) : i = .lp ri rk := by
  cases i <;> cases h
  rfl

theorem exec_completes {i : Instr} {s : State} (hread : ∀ a, i.dataRead s.t = some a → ∃ v, s.readData (s.ea a) = .ok v)
    (hwrite : ∀ a, i.dataWrite s.t = some a → (s.ea a).toNat < s.dataWords)
    (hlp : ∀ ri rk, i = .lp ri rk → ∃ v, s.readProg (s.readReg rk) = .ok v) : ∃ t, exec i s = .next t := by
  rw [dataRead_eq_meaning] at hread
  rw [dataWrite_eq_meaning] at hwrite
  rw [exec_eq_run]
  exact Meaning.run_completes hread hwrite fun ri rk h => hlp ri rk (meaning_eq_lp h)

theorem exec_of_read_error {i : Instr} {s : State} {a : Addr} {e : Fault} (ha : i.dataRead s.t = some a)
    (he : s.readData (s.ea a) = .error e) : exec i s = .fault e := by
  rw [exec_eq_run]
  exact Meaning.run_of_read_error (dataRead_eq_meaning i s.t ▸ ha) he

theorem exec_of_write_uninstalled {i : Instr} {s : State} {a : Addr} (ha : i.dataWrite s.t = some a)
    (h : s.dataWords ≤ (s.ea a).toNat) : exec i s = .fault (.outOfRange .data (s.ea a)) := by
  rw [exec_eq_run]
  exact Meaning.run_of_write_uninstalled (dataWrite_eq_meaning i s.t ▸ ha) h

theorem exec_lp_of_read_error {s : State} {rk : Reg} {e : Fault} (he : s.readProg (s.readReg rk) = .error e)
    (ri : Reg) : exec (.lp ri rk) s = .fault e :=
  withVal_fault.mpr (.inl he)

/-! ## Fully written memories (60_exceptions.md R240) -/

section
variable {i : Instr} {s t : State}

theorem exec_keeps_fullyWritten (h : exec i s = .next t) (hfull : s.fullyWritten) : t.fullyWritten := by
  obtain ⟨hprog, hdata⟩ := hfull
  obtain ⟨-, hpw, hdw⟩ := exec_keeps_program h
  refine ⟨fun b hb => ?_, fun b hb => ?_⟩
  · rw [exec_readProg h]
    exact hprog b (hpw ▸ hb)
  · rcases exec_data h with hsame | ⟨a, v, -, -, hwritten⟩
    · rw [State.readData, hsame, hdw]
      exact hdata b (hdw ▸ hb)
    · by_cases hba : b = s.ea a
      · refine ⟨v, ?_⟩
        rw [State.readData, hwritten, hba]
        exact readWord_write_same _ _ (hba ▸ hb)
      · rw [State.readData, hwritten, readWord_write_ne _ _ hba, hdw]
        exact hdata b (hdw ▸ hb)

/-- With all 65536 words installed every word is within reach. -/
theorem exec_completes_of_fullyWritten (hfull : s.fullyWritten) (hp : s.progWords = 65536) (hd : s.dataWords = 65536) :
    ∃ t, exec i s = .next t := by
  obtain ⟨hprog, hdata⟩ := hfull
  have hdlt : ∀ a : Word, a.toNat < s.dataWords := fun a => hd ▸ a.isLt
  have hplt : ∀ a : Word, a.toNat < s.progWords := fun a => hp ▸ a.isLt
  exact exec_completes (fun a _ => hdata _ (hdlt _)) (fun a _ => hdlt _) fun _ _ _ => hprog _ (hplt _)

end

end Sys2Proof.Machine

namespace Sys2Proof

open Sys2Proof.Machine

/-- Settles O36: the read of an unwritten installed word is the fault, and each of the three reads is the first
access. -/
theorem unwrittenWordFaults : Obligations.UnwrittenWordFaults := by
  unfold Obligations.UnwrittenWordFaults
  refine fun s => ⟨fun i a ha hinst hread => ?data, fun ri rk hinst hread => ?lp, fun hrun hinst hread => ?fetch⟩
  case data => exact exec_of_read_error ha (readWord_unwritten hinst hread)
  case lp => exact exec_lp_of_read_error (readWord_unwritten hinst hread) ri
  case fetch => exact step_of_fetch_error hrun (State.fetch_of_fault (readWord_unwritten hinst hread))

/-- Settles O37: a read and a write of a word that is not installed are the same fault. -/
theorem uninstalledAddressFaults : Obligations.UninstalledAddressFaults := by
  unfold Obligations.UninstalledAddressFaults
  refine fun s => ⟨fun i a ha hpast => ?data, fun ri rk hpast => ?lp, fun hrun hpast => ?fetch⟩
  case data =>
    rcases ha with ha | ha
    · exact exec_of_read_error ha (readWord_uninstalled hpast)
    · exact exec_of_write_uninstalled ha hpast
  case lp => exact exec_lp_of_read_error (readWord_uninstalled hpast) ri
  case fetch => exact step_of_fetch_error hrun (State.fetch_of_fault (readWord_uninstalled hpast))

/-- Settles O38. -/
theorem everyInstructionCompletes : Obligations.EveryInstructionCompletes :=
  ⟨fun _ _ hread hwrite hlp => exec_completes hread hwrite hlp,
    fun _ _ hfull hp hd => exec_completes_of_fullyWritten hfull hp hd,
    fun _ _ _ hfull hexec => exec_keeps_fullyWritten hexec hfull⟩

end Sys2Proof

/-! What an instruction does not depend on (10_state.md R21 to R23, 40_cycle_and_prefix.md R95): from a state with other
flags, or another PFR, a meaning that does not read them does the same. -/

namespace Sys2Proof.Machine

/-- The answer with every next state changed by `g`. -/
def mapNext (g : State → State) : Answer → Answer
  | .next t => .next (g t)
  | .fault f => .fault f
  | .refused r => .refused r

@[simp] theorem mapNext_id (o : Answer) : mapNext (fun t => t) o = o := by cases o <;> rfl

theorem mapNext_withVal {α : Type} (g : State → State) (x : Except Fault α) (k : α → Answer) :
    mapNext g (withVal x k) = withVal x fun a => mapNext g (k a) := by
  cases x <;> rfl

theorem mapNext_withSources (g : State → State) (f : Form) (s : State) (k : Word → Word → Answer) :
    mapNext g (f.withSources s k) = f.withSources s fun a b => mapNext g (k a b) := by
  simp only [Form.withSources, mapNext_withVal]

/-- The same instruction on the same answers, but for the next states that `g` changes where the two agree on it. -/
theorem mapNext_congr {g g' : State → State} {o : Answer} (h : ∀ t, o = .next t → g t = g' t) :
    mapNext g o = mapNext g' o := by
  cases o with
  | next t => exact congrArg Host.Outcome.next (h t rfl)
  | fault f => rfl
  | refused r => rfl

/-! ## What a meaning reads beside its operands -/

/-- The meanings that read C and Z (10_state.md R22, R23). -/
def Meaning.readsCarry : Meaning → Bool
  | .alu op _ => op.readsCarry
  | .cmp withCarry _ _ => withCarry
  | _ => false

/-- The meanings that read T (10_state.md R21). -/
def Meaning.readsT : Meaning → Bool
  | .move .mov _ => false
  | .move _ _ | .cond _ _ => true
  | _ => false

/-- The meanings that leave the flags unchanged (10_state.md section 5). -/
def Meaning.keepsFlags : Meaning → Bool
  | .alu _ _ | .cmp _ _ _ | .shift _ _ _ _ => false
  | _ => true

/-- A form with an immediate field: all but the R-type (40_cycle_and_prefix.md R94). -/
def Form.hasImm : Form → Bool
  | .regs _ _ _ => false
  | _ => true

/-- The meanings over a form with an immediate field. -/
def Meaning.readsPfr : Meaning → Bool
  | .alu _ f | .move _ f | .link f _ | .cond _ f | .cmp _ _ f => f.hasImm
  | _ => false

theorem readsCarry_eq_meaning (i : Instr) : i.readsCarry = i.meaning.readsCarry := by cases i <;> rfl

theorem readsT_eq_meaning (i : Instr) : i.readsT = i.meaning.readsT := by cases i <;> rfl

theorem keepsFlags_eq_meaning (i : Instr) : i.keepsFlags = i.meaning.keepsFlags := by cases i <;> rfl

theorem readsPrefix_eq_meaning (i : Instr) : i.readsPrefix = i.meaning.readsPfr := by cases i <;> rfl

/-! ## Other flags -/

/-- `s` with these flags. -/
def State.withFlags (s : State) (T C Z : Bool) : State := { s with t := T, c := C, z := Z }

section
variable (s : State) (T C Z : Bool)

@[simp] theorem State.readReg_withFlags (q : Reg) : (s.withFlags T C Z).readReg q = s.readReg q := by
  cases q <;> rfl

@[simp] theorem State.ea_withFlags (a : Addr) : (s.withFlags T C Z).ea a = s.ea a := by
  cases a with
  | direct k => rfl
  | indexed an k => exact congrArg (· + s.imm16 k) (s.readReg_withFlags T C Z _)

@[simp] theorem Form.src1_withFlags (f : Form) : f.src1 (s.withFlags T C Z) = f.src1 s := by
  cases f with
  | store ri a => exact congrArg s.readData (s.ea_withFlags T C Z a)
  | _ => exact congrArg Except.ok (s.readReg_withFlags T C Z _)

@[simp] theorem Form.src2_withFlags (f : Form) : f.src2 (s.withFlags T C Z) = f.src2 s := by
  cases f with
  | imm ri k => rfl
  | load ri a => exact congrArg s.readData (s.ea_withFlags T C Z a)
  | _ => exact congrArg Except.ok (s.readReg_withFlags T C Z _)

@[simp] theorem Form.dest_withFlags (f : Form) : f.dest (s.withFlags T C Z) = f.dest s := by
  cases f with
  | store ri a => exact congrArg Dest.mem (s.ea_withFlags T C Z a)
  | _ => rfl

@[simp] theorem Form.withSources_withFlags (f : Form) (k : Word → Word → Answer) :
    f.withSources (s.withFlags T C Z) k = f.withSources s k := by
  simp only [Form.withSources, Form.src1_withFlags, Form.src2_withFlags]

@[simp] theorem Form.withSub_withFlags (f : Form) (k : Word → Word → Answer) :
    f.withSub (s.withFlags T C Z) k = f.withSub s k :=
  f.withSources_withFlags s T C Z _

@[simp] theorem Form.chosen_withFlags (f : Form) (c : Choice) : f.chosen (s.withFlags T C Z) c = f.chosen s c := by
  cases c with
  | src1 => exact f.src1_withFlags s T C Z
  | src2 => exact f.src2_withFlags s T C Z
  | zero => rfl

theorem State.writeReg_withFlags (r : Reg) (v : Word) :
    (s.withFlags T C Z).writeReg r v = (s.writeReg r v).withFlags T C Z := by
  cases r <;> rfl

/-- An end that writes no flag passes them on. -/
theorem finish_withFlags (d : Dest) (v : Word) :
    finish (s.withFlags T C Z) d v = mapNext (fun t => t.withFlags T C Z) (finish s d v) := by
  cases d with
  | reg r => exact congrArg Host.Outcome.next (s.retire.writeReg_withFlags T C Z r v)
  | mem ea =>
    by_cases h : ea.toNat < s.dataWords
    · rw [(finish_mem (s := s)).mpr ⟨h, rfl⟩, (finish_mem (s := s.withFlags T C Z)).mpr ⟨h, rfl⟩]
      rfl
    · rw [finish_uninstalled (Nat.not_lt.mp h), finish_uninstalled (s := s.withFlags T C Z) (Nat.not_lt.mp h)]
      rfl

/-! A compare takes its flags from the comparison, and from C and Z only for `cpc`. -/

theorem compare_withFlags (cc : CC) (p q : Word) : compare cc p q (s.withFlags T C Z) = compare cc p q s := rfl

theorem compareCarry_withFlags (cc : CC) (p q : Word) :
    compareCarry cc p q (s.withFlags T s.c s.z) = compareCarry cc p q s := rfl

end

theorem AluOp.result_of_not_readsCarry {op : AluOp} (h : op.readsCarry = false) (f : Form) (cin cin' : Bool)
    (a b : Word) : op.result f cin a b = op.result f cin' a b := by
  cases op with
  | adc | dac | sbc | dsc => cases h
  | _ => rfl

section
variable {op : AluOp} {s : State} {C Z : Bool} (hC : op.readsCarry = true → C = s.c ∧ Z = s.z)
include hC

theorem AluOp.result_withFlags (f : Form) (a b : Word) : op.result f C a b = op.result f s.c a b := by
  cases hop : op.readsCarry with
  | true => rw [(hC hop).1]
  | false => exact AluOp.result_of_not_readsCarry hop f _ _ a b

theorem AluOp.setFlags_withFlags (T : Bool) (x : Word × Bool) :
    op.setFlags (s.withFlags T C Z) x = op.setFlags s x := by
  unfold AluOp.setFlags
  split
  case isTrue hop =>
    obtain ⟨rfl, rfl⟩ := hC hop
    rfl
  case isFalse => rfl

/-- What an arithmetic mnemonic writes depends on T in no case, and on C and Z only if it takes the carry in. -/
theorem AluOp.run_withFlags (f : Form) (T : Bool) : op.run f (s.withFlags T C Z) = op.run f s := by
  have hc : (s.withFlags T C Z).c = C := rfl
  unfold AluOp.run
  rw [Form.withSources_withFlags, Form.dest_withFlags, hc]
  simp only [AluOp.result_withFlags hC, AluOp.setFlags_withFlags hC]

end

/-- A meaning started with other flags: those it reads must be the old ones, and it passes on those it keeps. -/
theorem Meaning.run_withFlags {m : Meaning} {s : State} {T C Z : Bool} (hT : m.readsT = true → T = s.t)
    (hC : m.readsCarry = true → C = s.c ∧ Z = s.z) :
    m.run (s.withFlags T C Z) = mapNext (fun t => if m.keepsFlags then t.withFlags T C Z else t) (m.run s) := by
  cases m with
  | nop => rfl
  | pfx k => rfl
  | hlt => rfl
  | lp ri rk =>
    have hread : s.readProg ((s.withFlags T C Z).readReg rk) = s.readProg (s.readReg rk) :=
      congrArg s.readProg (s.readReg_withFlags T C Z rk)
    refine Eq.trans ?_ (mapNext_withVal ..).symm
    exact (congrArg (withVal · _) hread).trans
      (congrArg (withVal _) (funext fun v => finish_withFlags { s with cycles := s.cycles + 1 } T C Z (.reg ri) v))
  | alu op f => exact (op.run_withFlags hC f T).trans (mapNext_id _).symm
  | cmp withCarry cc f =>
    refine Eq.trans ?_ (mapNext_id _).symm
    cases withCarry with
    | false =>
      exact (f.withSub_withFlags s T C Z _).trans
        (congrArg (f.withSub s) (funext₂ fun p q => compare_withFlags s T C Z cc p q))
    | true =>
      obtain ⟨rfl, rfl⟩ := hC rfl
      exact (f.withSub_withFlags s T s.c s.z _).trans
        (congrArg (f.withSub s) (funext₂ fun p q => compareCarry_withFlags s T cc p q))
  | shift g ri rj rk =>
    refine Eq.trans ?_ (mapNext_id _).symm
    simp only [Meaning.run, State.readReg_withFlags]
    rfl
  | move op f =>
    have hchoice : op.choice T = op.choice s.t := by
      cases op with
      | mov => rfl
      | _ => rw [hT rfl]
    have ht : (s.withFlags T C Z).t = T := rfl
    simp only [Meaning.run, MoveOp.run, mapNext_withVal, Form.chosen_withFlags, Form.dest_withFlags, ht, hchoice,
      finish_withFlags, Meaning.keepsFlags, if_true]
  | cond op f =>
    obtain rfl := hT rfl
    have ht : (s.withFlags s.t C Z).t = s.t := rfl
    simp only [Meaning.run, CondOp.run, Form.withSources_withFlags, Form.dest_withFlags, ht, finish_withFlags,
      Meaning.keepsFlags, if_true]
    split
    · rw [mapNext_withSources]
    · rfl
  | link f hf =>
    have hlinked : ∀ l : Word, ({ s.withFlags T C Z with r6 := l } : State) =
        ({ s with r6 := l } : State).withFlags T C Z := fun _ => rfl
    have hnext : (s.withFlags T C Z).nextPc = s.nextPc := rfl
    simp only [Meaning.run, moveLink_eq, mapNext_withVal, hnext, hlinked, Form.chosen_withFlags, Form.dest_withFlags,
      finish_withFlags, Meaning.keepsFlags, if_true]

theorem exec_withFlags {i : Instr} {s : State} {T C Z : Bool} (hT : i.readsT = true → T = s.t)
    (hC : i.readsCarry = true → C = s.c ∧ Z = s.z) :
    exec i (s.withFlags T C Z) = mapNext (fun t => if i.keepsFlags then t.withFlags T C Z else t) (exec i s) := by
  rw [readsT_eq_meaning] at hT
  rw [readsCarry_eq_meaning] at hC
  rw [exec_eq_run, exec_eq_run, keepsFlags_eq_meaning]
  exact Meaning.run_withFlags hT hC

/-! ## Another PFR -/

section
variable (s : State) (p : Imm11)

/-- Every end of an instruction clears PFR before it writes (40_cycle_and_prefix.md R95). -/
theorem finish_withPfr (d : Dest) (v : Word) : finish { s with pfr := p } d v = finish s d v := by
  cases d <;> rfl

theorem State.readReg_withPfr (q : Reg) : ({ s with pfr := p } : State).readReg q = s.readReg q := by
  cases q <;> rfl

variable {f : Form} (hf : f.hasImm = false)
include hf

theorem Form.src1_withPfr : f.src1 { s with pfr := p } = f.src1 s := by
  cases f with
  | regs ri rj rk => exact congrArg Except.ok (s.readReg_withPfr p rj)
  | _ => cases hf

theorem Form.src2_withPfr : f.src2 { s with pfr := p } = f.src2 s := by
  cases f with
  | regs ri rj rk => exact congrArg Except.ok (s.readReg_withPfr p rk)
  | _ => cases hf

theorem Form.dest_withPfr : f.dest { s with pfr := p } = f.dest s := by
  cases f with
  | regs ri rj rk => rfl
  | _ => cases hf

theorem Form.withSources_withPfr (k : Word → Word → Answer) :
    f.withSources { s with pfr := p } k = f.withSources s k := by
  simp only [Form.withSources, Form.src1_withPfr s p hf, Form.src2_withPfr s p hf]

theorem Form.chosen_withPfr (c : Choice) : f.chosen { s with pfr := p } c = f.chosen s c := by
  cases c with
  | src1 => exact Form.src1_withPfr s p hf
  | src2 => exact Form.src2_withPfr s p hf
  | zero => rfl

end

theorem AluOp.setFlags_withPfr (op : AluOp) (s : State) (p : Imm11) (x : Word × Bool) :
    op.setFlags { s with pfr := p } x = { op.setFlags s x with pfr := p } := by
  unfold AluOp.setFlags
  split <;> rfl

/-- A meaning over no immediate field started with another PFR (40_cycle_and_prefix.md R95). -/
theorem Meaning.run_withPfr {m : Meaning} (h : m.readsPfr = false) (s : State) (p : Imm11) :
    m.run { s with pfr := p } = m.run s := by
  cases m with
  | nop => rfl
  | pfx k => rfl
  | hlt => rfl
  | lp ri rk =>
    have hread : s.readProg (({ s with pfr := p } : State).readReg rk) = s.readProg (s.readReg rk) :=
      congrArg s.readProg (s.readReg_withPfr p rk)
    exact congrArg (withVal · _) hread
  | alu op f =>
    simp only [Meaning.run, AluOp.run, Form.withSources_withPfr s p h, Form.dest_withPfr s p h, AluOp.setFlags_withPfr,
      finish_withPfr]
  | move op f =>
    simp only [Meaning.run, MoveOp.run, Form.chosen_withPfr s p h, Form.dest_withPfr s p h, finish_withPfr]
  | cond op f =>
    simp only [Meaning.run, CondOp.run, Form.withSources_withPfr s p h, Form.dest_withPfr s p h, finish_withPfr]
    rfl
  | cmp withCarry cc f =>
    cases withCarry <;> exact Form.withSources_withPfr s p h _
  | shift g ri rj rk =>
    simp only [Meaning.run, State.readReg_withPfr]
    rfl
  | link f hf =>
    have hlinked : ∀ l : Word, ({ ({ s with pfr := p } : State) with r6 := l } : State) =
        { ({ s with r6 := l } : State) with pfr := p } := fun _ => rfl
    have hnext : ({ s with pfr := p } : State).nextPc = s.nextPc := rfl
    rw [Meaning.run, Meaning.run, moveLink_eq, moveLink_eq, hnext, hlinked,
      Form.chosen_withPfr { s with r6 := s.nextPc } p h, Form.dest_withPfr { s with r6 := s.nextPc } p h]
    exact congrArg (withVal _) (funext fun v => finish_withPfr _ p _ v)

theorem exec_withPfr {i : Instr} (h : i.readsPrefix = false) (s : State) (p : Imm11) :
    exec i { s with pfr := p } = exec i s := by
  rw [exec_eq_run, exec_eq_run]
  exact Meaning.run_withPfr (readsPrefix_eq_meaning i ▸ h) s p

end Sys2Proof.Machine

namespace Sys2Proof

open Sys2Proof.Machine

/-- Settles O41: T being the old one, an instruction that keeps the flags has the old T to pass on. -/
theorem carryAndZeroReadOnlyByCarryIn : Obligations.CarryAndZeroReadOnlyByCarryIn := by
  unfold Obligations.CarryAndZeroReadOnlyByCarryIn
  intro i s c z hC
  have hexec : exec i (s.withFlags s.t c z) =
      mapNext (fun t => if i.keepsFlags then { t with c := c, z := z } else t) (exec i s) := by
    rw [exec_withFlags (fun _ => rfl) fun h => absurd h (by simp [hC])]
    refine mapNext_congr fun t hnext => ?_
    split
    case isTrue hkeep =>
      obtain ⟨ht, -⟩ := exec_keeps_flags hnext hkeep
      rw [← ht]
      rfl
    case isFalse => rfl
  refine hexec.trans ?_
  cases exec i s <;> rfl

/-- Settles O42: C and Z being the old ones, an instruction that keeps the flags has the old C and Z to pass on. -/
theorem conditionReadOnlyByConditionals : Obligations.ConditionReadOnlyByConditionals := by
  unfold Obligations.ConditionReadOnlyByConditionals
  intro i s b hT
  have hexec : exec i (s.withFlags b s.c s.z) =
      mapNext (fun t => if i.keepsFlags then { t with t := b } else t) (exec i s) := by
    rw [exec_withFlags (fun h => absurd h (by simp [hT])) fun _ => ⟨rfl, rfl⟩]
    refine mapNext_congr fun t hnext => ?_
    split
    case isTrue hkeep =>
      obtain ⟨-, hc, hz⟩ := exec_keeps_flags hnext hkeep
      rw [← hc, ← hz]
      rfl
    case isFalse => rfl
  refine hexec.trans ?_
  cases exec i s <;> rfl

/-- Settles O43: such an instruction reads registers alone, and its end clears PFR. -/
theorem prefixReadOnlyByImmediates : Obligations.PrefixReadOnlyByImmediates :=
  fun _ s p h => exec_withPfr h s p

end Sys2Proof
